-- ==== Sys2Proof/Word.lean ====
section
/-! DEFINITION. The plain word and set types of the VN480: what the manual treats as bits. -/

namespace Sys2Proof

/-- A parameter word, a reply word, a page id, a ring cycle number: 16 bits (2.8.2, 2.8.4). -/
abbrev Word16 := BitVec 16

/-- A clip word as the external clip memory holds it (3.3 of 00_scope). -/
abbrev ClipWord := BitVec 16

/-- A sample as it stands in a ring slot or in a port frame: 24 bits (R1, R43). -/
abbrev RawSample := BitVec 24

/-- A node address, 0..63; 0 is the universal address and the address of an unnamed node (R17). -/
abbrev NodeAddr := BitVec 6

/-- A call id, 1..255 (3.7). -/
abbrev CallId := BitVec 8

/-- A page id, 1..65,535 (3.7). -/
abbrev PageId := BitVec 16

/-- A directory number, 1..9,999, in the 14 bits OFFER CALL gives it (R139). -/
abbrev DirNumber := BitVec 14

/-- A zone set over zones 0..23: bit z stands for zone z (R107 words 8 and 9, R158). -/
abbrev ZoneSet := BitVec 24

/-- One word of the external clip memory at its address (1.2: 4,194,304 words of 16 bits). -/
abbrev ClipCell := Nat × ClipWord

end Sys2Proof
end

