-- ==== Sys2Proof/Syntax.lean ====
section
/-! DEFINITION. The commands of the VN480: one constructor per row of spec/opcode_table.json, with the
operands the row's rule gives it, and the operand types. A request is the CLOSE word that carries its code: its
operands are that word's address field and its 8 low payload bits (2.8.2); its parameter words are the ones the
request buffer holds (R27, R29). -/

namespace Sys2Proof

/-- A ring cycle: sync word (pattern and ring cycle number), control slot, alert slot, 64 audio slots (R1). -/
structure RingCycle where
  pattern : BitVec 16
  number  : BitVec 16
  control : BitVec 32
  alert   : BitVec 26
  slots   : Vector RawSample 64
deriving DecidableEq, Repr

/-- One reading of the return lane: a value in units of 0.25 ohm and its valid flag (R50). -/
structure LineReading where
  value : BitVec 12
  valid : Bool
deriving DecidableEq, Repr

/-- The key events of a station (R131). -/
inductive Key where
  | call (number : DirNumber)
  | answer
  | hangUp
  | pagePress
  | pageRelease
  | volumeUp
  | volumeDown
  | emergency
deriving DecidableEq, Repr

/-- The commands, in the order of spec/opcode_table.json. -/
inductive Instr where
  /-- POWER_ON (R23): the supply comes up. -/
  | powerOn
  /-- PIN_RESET (R23): the reset pin is asserted and released. -/
  | pinReset
  /-- CYCLE_PERIOD (R2): one cycle period, with the input frame received in it (R43) and the levels of the four
  contact lines sampled in it (R156), bit k the level of line k, low meaning active. -/
  | cyclePeriod (frame : Vector RawSample 32) (contacts : BitVec 4)
  /-- CYCLE_ARRIVAL (R3): a ring cycle read at a bit alignment of the arriving stream. -/
  | cycleArrival (align : Fin 1626) (cycle : RingCycle)
  /-- RING_LOST (R6): the arrival of the fourth bad cycle. -/
  | ringLost (align : Fin 1626) (cycle : RingCycle)
  /-- RING_REGAINED (R4): the arrival of the cycle that completes a lock from HUNT. -/
  | ringRegained (align : Fin 1626) (cycle : RingCycle)
  /-- PARAM_WORD (R27): a PARAM word with a correct check. -/
  | paramWord (address : NodeAddr) (data : Word16)
  /-- CLOSE_OTHER (R24): a CLOSE word addressed to another node. -/
  | closeOther (address : NodeAddr) (payload : BitVec 16)
  /-- ECHO_WORD (R28): an ECHO word with a correct check. -/
  | echoWord (address : NodeAddr) (payload : BitVec 16)
  /-- FAULT_WORD (R26): a FAULT word with a correct check. -/
  | faultWord (address : NodeAddr) (payload : BitVec 16)
  /-- BAD_CONTROL_WORD (R25): a control word with a wrong check, or of kind 6 or 7. -/
  | badControlWord (word : BitVec 32)
  /-- SEND_REPLY_WORD (R31): an IDLE word arrives; a pending reply takes its slot. -/
  | sendReplyWord (address : NodeAddr) (payload : BitVec 16)
  /-- UNKNOWN_REQUEST (R29): a CLOSE whose request code is not in the table, or that meets a spoiled buffer. -/
  | unknownRequest (address : NodeAddr) (code : BitVec 8) (low : BitVec 8)
  /-- ALERT_WORD_ARRIVAL (R20). -/
  | alertWordArrival (word : BitVec 26)
  /-- ALERT_SEND (R22). -/
  | alertSend
  /-- SLOT_CLASH (R16): the clash count of the insert of a slot has reached 48. -/
  | slotClash (slot : Fin 64)
  /-- ENROLL (R18). -/
  | enroll (address : NodeAddr) (low : BitVec 8)
  /-- RELEASE_ALL (R19). -/
  | releaseAll (address : NodeAddr) (low : BitVec 8)
  /-- IDENTIFY (R37). -/
  | identify (address : NodeAddr) (low : BitVec 8)
  /-- READ_EVENTS (R36). -/
  | readEvents (address : NodeAddr) (low : BitVec 8)
  /-- RESET_NODE (R39). -/
  | resetNode (address : NodeAddr) (low : BitVec 8)
  /-- SET_NODE (R38). -/
  | setNode (address : NodeAddr) (low : BitVec 8)
  /-- SET_INSERT (R12). -/
  | setInsert (address : NodeAddr) (low : BitVec 8)
  /-- CLEAR_INSERT (R13). -/
  | clearInsert (address : NodeAddr) (low : BitVec 8)
  /-- SET_PORT (R44). -/
  | setPort (address : NodeAddr) (low : BitVec 8)
  /-- SET_INPUT (R46). -/
  | setInput (address : NodeAddr) (low : BitVec 8)
  /-- SET_CHANNEL (R49). -/
  | setChannel (address : NodeAddr) (low : BitVec 8)
  /-- RETURN_LANE_FRAME (R50). -/
  | returnLaneFrame (readings : Vector LineReading 32)
  /-- LOAD_ROUTE (R54). -/
  | loadRoute (address : NodeAddr) (low : BitVec 8)
  /-- CLEAR_ROUTE (R55). -/
  | clearRoute (address : NodeAddr) (low : BitVec 8)
  /-- SET_ZONE (R57). -/
  | setZone (address : NodeAddr) (low : BitVec 8)
  /-- SET_ZONE_LOCAL (R59). -/
  | setZoneLocal (address : NodeAddr) (low : BitVec 8)
  /-- READ_ZONE (R70). -/
  | readZone (address : NodeAddr) (low : BitVec 8)
  /-- TAKE (R76). -/
  | take (address : NodeAddr) (low : BitVec 8)
  /-- TAKE_START (R77). -/
  | takeStart
  /-- TAKE_DONE (R80). -/
  | takeDone
  /-- COPY_BANK (R75). -/
  | copyBank (address : NodeAddr) (low : BitVec 8)
  /-- SET_FEED (R84). -/
  | setFeed (address : NodeAddr) (low : BitVec 8)
  /-- REVERT_FEED (R88). -/
  | revertFeed (address : NodeAddr) (low : BitVec 8)
  /-- FEED_CHANGEOVER (R86). -/
  | feedChangeover (pair : Fin 4)
  /-- FEED_BOTH_LOST (R86). -/
  | feedBothLost (pair : Fin 4)
  /-- FEED_AUTO_REVERT (R88). -/
  | feedAutoRevert (pair : Fin 4)
  /-- MISMATCH_BLOCK_END (R89). -/
  | mismatchBlockEnd (pair : Fin 4)
  /-- DEFINE_CLIP (R92). -/
  | defineClip (address : NodeAddr) (low : BitVec 8)
  /-- DELETE_CLIP (R93). -/
  | deleteClip (address : NodeAddr) (low : BitVec 8)
  /-- WRITE_CLIP (R94). -/
  | writeClip (address : NodeAddr) (low : BitVec 8)
  /-- CAPTURE_CLIP (R96). -/
  | captureClip (address : NodeAddr) (low : BitVec 8)
  /-- CAPTURE_FULL (R98). -/
  | captureFull
  /-- CAPTURE_END (R98). -/
  | captureEnd
  /-- CAPTURE_DONE (R98). -/
  | captureDone
  /-- CANCEL_CAPTURE (R99). -/
  | cancelCapture (address : NodeAddr) (low : BitVec 8)
  /-- READ_CLIP (R95). -/
  | readClip (address : NodeAddr) (low : BitVec 8)
  /-- BURST_GRANT (R102). -/
  | burstGrant
  /-- BURST_DONE (R102). -/
  | burstDone
  /-- PLAYER_PRIMED (R101). -/
  | playerPrimed (player : Fin 4)
  /-- CHIME_END (R104). -/
  | chimeEnd (player : Fin 4)
  /-- SEQUENCE_END (R104). -/
  | sequenceEnd (player : Fin 4)
  /-- GAP_END (R121). -/
  | gapEnd (page : PageId)
  /-- QUEUE_PAGE (R107). -/
  | queuePage (address : NodeAddr) (low : BitVec 8)
  /-- PAGE_EXPIRED (R123). -/
  | pageExpired (page : PageId)
  /-- PAGE_TIMED_OUT (R124). -/
  | pageTimedOut (page : PageId)
  /-- PAGE_SOURCE_LOST (R124). -/
  | pageSourceLost (page : PageId)
  /-- CANCEL_PAGE (R126). -/
  | cancelPage (address : NodeAddr) (low : BitVec 8)
  /-- READ_PAGE (R127). -/
  | readPage (address : NodeAddr) (low : BitVec 8)
  /-- POLL_REPLY (R131): the station of the polled port answers, with 0, 1 or 2 key events. -/
  | pollReply (port : Fin 32) (keys : List Key)
  /-- POLL_MISS (R131). -/
  | pollMiss (port : Fin 32)
  /-- STATION_LOST (R132). -/
  | stationLost (port : Fin 32)
  /-- CUE_TIMER_EXPIRY (R133). -/
  | cueTimerExpiry (port : Fin 32)
  /-- CALL (R136). -/
  | call (port : Fin 32) (number : DirNumber)
  /-- ANSWER (R137). -/
  | answer (port : Fin 32)
  /-- HANG_UP (R138). -/
  | hangUp (port : Fin 32)
  /-- EMERGENCY (R144). -/
  | emergency (port : Fin 32)
  /-- PAGE_PRESS (R125). -/
  | pagePress (port : Fin 32)
  /-- PAGE_RELEASE (R125). -/
  | pageRelease (port : Fin 32)
  /-- VOLUME_UP (R148). -/
  | volumeUp (port : Fin 32)
  /-- VOLUME_DOWN (R148). -/
  | volumeDown (port : Fin 32)
  /-- SET_STATION (R130). -/
  | setStation (address : NodeAddr) (low : BitVec 8)
  /-- OFFER_CALL (R139). -/
  | offerCall (address : NodeAddr) (low : BitVec 8)
  /-- BRIDGE_CALL (R140). -/
  | bridgeCall (address : NodeAddr) (low : BitVec 8)
  /-- END_CALL (R141). -/
  | endCall (address : NodeAddr) (low : BitVec 8)
  /-- CALL_NO_ANSWER (R142). -/
  | callNoAnswer (id : CallId)
  /-- CALL_HELD_TOO_LONG (R142). -/
  | callHeldTooLong (id : CallId)
  /-- READ_CALL (R149). -/
  | readCall (address : NodeAddr) (low : BitVec 8)
  /-- SET_PATTERN_STEP (R152). -/
  | setPatternStep (address : NodeAddr) (low : BitVec 8)
  /-- GENERATOR_STEP_END (R153). -/
  | generatorStepEnd (generator : Fin 4)
  /-- SET_CONTACT (R157). -/
  | setContact (address : NodeAddr) (low : BitVec 8)
  /-- CONTACT_ACTIVATE (R156). -/
  | contactActivate (line : Fin 4)
  /-- CONTACT_CLEAR (R156). -/
  | contactClear (line : Fin 4)
  /-- SET_GROUP (R158). -/
  | setGroup (address : NodeAddr) (low : BitVec 8)
  /-- ALARM_START (R159). -/
  | alarmStart (address : NodeAddr) (low : BitVec 8)
  /-- ALARM_STOP (R160). -/
  | alarmStop (address : NodeAddr) (low : BitVec 8)
  /-- SILENCE_ALARM (R161). -/
  | silenceAlarm (address : NodeAddr) (low : BitVec 8)
  /-- BROADCAST_REFRESH (R162). -/
  | broadcastRefresh (entry : Fin 8)
  /-- NOT_CONFIRMED (R163). -/
  | notConfirmed (entry : Fin 8)
  /-- SET_WINDOW (R174). -/
  | setWindow (address : NodeAddr) (low : BitVec 8)
  /-- SET_SCAN (R170). -/
  | setScan (address : NodeAddr) (low : BitVec 8)
  /-- SCAN_STEP_END (R172). -/
  | scanStepEnd
  /-- SCAN_REST_END (R173). -/
  | scanRestEnd
  /-- READ_LINES (R178). -/
  | readLines (address : NodeAddr) (low : BitVec 8)
  /-- SET_TRACKER (R180). -/
  | setTracker (address : NodeAddr) (low : BitVec 8)
  /-- RESET_TRACKER (R187). -/
  | resetTracker (address : NodeAddr) (low : BitVec 8)
  /-- READ_TRACKER (R188). -/
  | readTracker (address : NodeAddr) (low : BitVec 8)
  /-- TRACKER_BLOCK_END (R182). -/
  | trackerBlockEnd (zone : Fin 24)
  /-- UNIVERSAL_CLOSE_FORWARDED (R34): a universal CLOSE with another request code. -/
  | universalCloseForwarded (payload : BitVec 16)
  /-- OWN_CLOSE_DISCARDED (R32): an own CLOSE that meets a pending reply. -/
  | ownCloseDiscarded (payload : BitVec 16)
deriving DecidableEq, Repr

end Sys2Proof
end

