-- ==== Sys2Proof/Decode.lean ====
section
/-! DEFINITION. The command a word of spec/opcode_table.json spells. The table gives none of its rows any bits: the
commands of this block are periods, arrivals, control words and events, so no word spells one (log entry 3). The
layouts of the words on the line stand in Machine/Flags.lean. -/

namespace Sys2Proof

/-- The command of a table word: none, since no row has bits. -/
def decodeTableWord (_nbits _w : Nat) : Option Instr := none

end Sys2Proof
end

