-- ==== Sys2Proof/Config.lean ====
section
/-! DEFINITION. What is fixed in the part: capacities, limits and the two decibel tables (00_scope 1.2, 3.7, 3.8;
R37, R60, R181). The spec leaves no value of this machine open to an implementation, so no free value stands here
(log entry 24). -/

namespace Sys2Proof.Config

/-- The empty marker (3.2, R42). -/
def emptyMarker : Int := -8388608

/-- The upper end of the sample range; the lower end is its negative (3.2, R42). -/
def sampleMax : Int := 8388607

/-- The sync pattern of a ring cycle (R1). -/
def syncPattern : BitVec 16 := 0x3A97

/-- The reply words of IDENTIFY (R37). -/
def identifyWords : List Word16 := [0x0480, 3, 24, 256, 32, 256, 4096, 32, 16, 32, 8, 0x0404]

/-- The local trim factor Tk of a trim step (R60). -/
def trimFactor : Nat → Nat
  | 0 => 16384
  | 1 => 13785
  | 2 => 11599
  | 3 => 9759
  | 4 => 8211
  | 5 => 6909
  | 6 => 5813
  | 7 => 4891
  | _ => 4115

/-- The compensation factor of a tracker step k (R181). -/
def compensation : Nat → Nat
  | 0 => 16384
  | 1 => 19472
  | 2 => 23143
  | 3 => 27505
  | 4 => 32690
  | 5 => 38853
  | 6 => 46176
  | 7 => 54881
  | _ => 65226

/-- Words of external clip memory (1.2, R91). -/
def clipMemoryWords : Nat := 4194304

/-- What a word of clip memory reads as that nothing has written. DESIGN CHOICE (log entry 4): R105 says only that
contents are not kept; by R91 no clip holds such a word. -/
def unwrittenClipWord : ClipWord := 0

/-- The end marker of clip memory, -32,768 (3.3). -/
def endMarker : ClipWord := 0x8000

/-- Cycle periods of a second, and of a tick (3.6). -/
def second : Nat := 48000
def tick : Nat := 480

/-- The cue timer's start value, three seconds (R133). -/
def cueTime : Nat := 144000

end Sys2Proof.Config
end

