-- ==== Sys2Proof/Machine/State.lean ====
section
/-! DEFINITION. The state of the VN480, block by block (00_scope 1.2), as plain data, and the state after
power-on. Where the manual names two views of one thing, it is stored once: an UNNAMED node is one with address 0
(R17), the kind of an insert follows from its source (1.4), the holder of a zone is the page whose granted zones
contain it (R110), a station's state follows from its presence and its call (R133), a player's page is the page
that names the player, an outstanding burst is the arbiter's burst (R101). -/

namespace Sys2Proof.Machine

/-! ### Ring interface (chapter 1) -/

/-- The ring receiver (R3 to R6). -/
inductive RxState where
  | hunt
  | locked
  | suspect
deriving DecidableEq, Repr

/-- The source of an insert (R12, R14). A trunk call's insert is dynamic, every other is static. -/
inductive InsertSource where
  | localInput (input : Fin 32)
  | zone (zone : Fin 24)
  | player (player : Fin 4)
  | trunkCall (id : CallId)
deriving DecidableEq, Repr

/-- An entry of the insert table (1.4). -/
structure Insert where
  slot     : Fin 64
  source   : InsertSource
  clash    : Nat
  reported : Bool
deriving DecidableEq, Repr

/-- The class of an alarm, in ascending rank (1.6, 9.3). -/
inductive AlarmClass where
  | test
  | localArea
  | crew
  | general
deriving DecidableEq, Repr

/-- A word of the alert send list: the state of one alarm record entry (R21). -/
structure SendWord where
  entry   : Fin 8
  on      : Bool
  group   : Fin 8
  cls     : AlarmClass
  pattern : Fin 8
  /-- The word joined the list in the present period (R21). -/
  fresh   : Bool
deriving DecidableEq, Repr

/-- The cycle that will be sent in the next period (R2, R8), with its control and alert slots as determined so
far. Model's own pipeline record: the spec gives it as timing. -/
structure Forward where
  cycle     : RingCycle
  /-- The alert slot is free for the node's own word (R20, R22). -/
  alertFree : Bool
  /-- The cycle is generated by the node, in HUNT (R8). -/
  generated : Bool
deriving DecidableEq, Repr

/-- A cycle that a receiver in HUNT has been shown: the bit at which it begins, with its sync word (R4). -/
structure Seen where
  align   : Fin 1626
  pattern : BitVec 16
  number  : BitVec 16
deriving DecidableEq, Repr

structure Ring where
  rx          : RxState
  goodRun     : Nat
  missCount   : Nat
  /-- The bit of the stream at which the candidate's or the kept alignment begins a cycle (R4, R5). -/
  alignment   : Fin 1626
  /-- What a receiver in HUNT has been shown since the first cycle of its candidate, oldest first and that cycle
  included: where the search resumes when the candidate fails (R4). Empty while it searches, and outside HUNT. -/
  stream      : List Seen
  /-- The number carried by the previous arriving cycle (R3). -/
  prevNumber  : BitVec 16
  /-- The node cycle number (R9). -/
  cycleNumber : BitVec 16
  /-- The node address; UNNAMED is address 0 (R17). -/
  address     : NodeAddr
  inserts     : List Insert
  /-- The alert send list, oldest word first (R21). -/
  sendList    : List SendWord
  /-- What each slot's tap reads in the present computation (R10). -/
  taps        : Vector Int 64
  /-- The cycle that has arrived in the period not yet computed, if any. -/
  arrived     : Option RingCycle
  forward     : Forward
  /-- The ring cycle last sent. -/
  sent        : Option RingCycle
deriving DecidableEq, Repr

/-! ### Control interface (chapter 2) -/

/-- The request buffer and its two marks (2.2). -/
structure RequestBuffer where
  words   : List Word16
  tooLong : Bool
  spoiled : Bool
deriving DecidableEq, Repr

/-- The statuses (R30). -/
inductive Status where
  | ok
  | accepted
  | unknown
  | badLength
  | outOfRange
  | busy
  | full
  | duplicate
  | notFound
  | inUse
  | conflict
  | notAllowed
  | check
  | overlap
deriving DecidableEq, Repr

/-- A pending reply: the REPLY words not yet sent, then an ECHO with the request code and status (2.4). -/
structure Reply where
  words  : List Word16
  code   : BitVec 8
  status : Status
deriving DecidableEq, Repr

/-- The event kinds (2.8.4). -/
inductive EventKind where
  | pageStarted
  | pageSuspended
  | pageEnded
  | callWanted
  | callAnswered
  | callEnded
  | alarmBegun
  | alarmEnded
  | lineFault
  | lineRestored
  | feedChanged
  | feedMismatch
  | captureDone
  | captureFailed
  | underrun
  | takeDone
  | ringLost
  | ringRegained
  | slotClash
  | stationLost
  | stationFound
  | nodeReset
deriving DecidableEq, Repr

/-- An event record (2.6), its stamp reduced as 2.8.4 states. -/
structure EventRec where
  kind    : EventKind
  stamp   : BitVec 7
  subject : Word16
  detail  : BitVec 4
deriving DecidableEq, Repr

inductive WriteMode where
  | direct
  | staged
deriving DecidableEq, Repr

/-- The node settings (2.7.2). -/
structure Settings where
  writeMode   : WriteMode
  /-- The emergency number, 0 meaning none. -/
  emergency   : DirNumber
  /-- Ring timeout, in seconds. -/
  ringTimeout : Nat
  /-- Hold limit, in seconds. -/
  holdLimit   : Nat
  callGain    : Nat
deriving DecidableEq, Repr

structure Control where
  buffer   : RequestBuffer
  reply    : Option Reply
  /-- The event list, oldest first. -/
  events   : List EventRec
  catchRec : Option EventRec
  overflow : Bool
  settings : Settings
  /-- The settings of a SET NODE of this period, which apply from the next (R38). -/
  incoming : Option Settings
deriving DecidableEq, Repr

/-! ### Local ports (chapter 3) -/

inductive PortFormat where
  | twos
  | offset
deriving DecidableEq, Repr

/-- The role of an input: LINE, or SENSE with a zone and a position (3.4). -/
inductive InputRole where
  | line
  | sense (zone : Fin 24) (position : Fin 2)
deriving DecidableEq, Repr

/-- The settings of an input; trim code c multiplies by 2 to the power c (3.4, R46). -/
structure InputRec where
  trim : Fin 4
  role : InputRole
deriving DecidableEq, Repr

/-- The role of an output channel (3.6). -/
inductive ChannelRole where
  | none
  | zone (zone : Fin 24)
  | station (port : Fin 32)
deriving DecidableEq, Repr

/-- An output frame: a word and a measure-request flag for each channel (R43, R50). -/
structure OutFrame where
  words   : Vector RawSample 32
  measure : BitVec 32
deriving DecidableEq, Repr

structure Ports where
  inFormat  : PortFormat
  outFormat : PortFormat
  inputs    : Vector InputRec 32
  channels  : Vector ChannelRole 32
  /-- The input samples of the most recent computation (R45). -/
  samples   : Vector Int 32
  /-- The output frame last sent. -/
  frameOut  : OutFrame
deriving DecidableEq, Repr

/-! ### Mix engine and scene control (chapters 4 and 5) -/

inductive RouteSource where
  | ringSlot (slot : Fin 64)
  | localInput (input : Fin 32)
  | feed (pair : Fin 4)
deriving DecidableEq, Repr

inductive RouteRole where
  | programme
  | showAudio
deriving DecidableEq, Repr

/-- A route entry; its key is its zone and source (R52). -/
structure Route where
  zone   : Fin 24
  source : RouteSource
  gain   : Nat
  role   : RouteRole
deriving DecidableEq, Repr

/-- The mode of a zone, with the threshold of SHOW LOCKED (4.2). -/
inductive ZoneMode where
  | normal
  | showLocked (threshold : Nat)
  | off
deriving DecidableEq, Repr

/-- The zone bank fields (4.2). -/
structure ZoneBank where
  mode    : ZoneMode
  master  : Nat
  depth   : Nat
  attack  : Nat
  release : Nat
deriving DecidableEq, Repr

/-- A route bank with its zone bank fields (4.1, 4.2). -/
structure Bank where
  routes : List Route
  fields : Vector ZoneBank 24
deriving DecidableEq, Repr

/-- The zone local fields (4.3). -/
structure ZoneLocal where
  level     : Nat
  trimStep  : Nat
  trimLimit : Nat
deriving DecidableEq, Repr

structure Mix where
  bankA     : Bank
  bankB     : Bank
  zoneLocal : Vector ZoneLocal 24
  /-- The duck factor D of each zone (4.5). -/
  duck      : Vector Nat 24
deriving DecidableEq, Repr

inductive BankId where
  | a
  | b
deriving DecidableEq, Repr

inductive TakeState where
  | idle
  | waiting
  | crossfading
deriving DecidableEq, Repr

/-- Whether a waiting TAKE starts before the next computation, before the one after it, or not yet (R77). -/
inductive TakeStartDue where
  | no
  | next
  | now
deriving DecidableEq, Repr

/-- Scene control: the active bank and the TAKE record (chapter 5). -/
structure Scene where
  active   : BankId
  state    : TakeState
  length   : Nat
  target   : Option (BitVec 16)
  step     : Nat
  start    : TakeStartDue
  /-- The computation with step i equal to T has been formed, so TAKE DONE is due (R80). -/
  lastDone : Bool
  /-- Zones handed to the page scheduler by a TAKE that starts in this period (R78). -/
  handed   : ZoneSet
deriving DecidableEq, Repr

inductive FeedState where
  | onMain
  | onBackup
  | bothLost
deriving DecidableEq, Repr

/-- A feed pair (5.3). -/
structure Feed where
  main          : Fin 64
  backup        : Fin 64
  delay         : Nat
  autoRevert    : Bool
  tolerance     : Nat
  state         : FeedState
  selectedEmpty : Nat
  bothEmpty     : Nat
  mainPresent   : Nat
  blockPos      : Nat
  qualifies     : Bool
  blockCount    : Nat
  mismatch      : Bool
  /-- The computation with block position 480 has been formed, so the block's end is due (R89). -/
  blockDone     : Bool
deriving DecidableEq, Repr

/-! ### Clip engine (chapter 6) -/

inductive ClipState where
  | empty
  | capturing
  | ready
deriving DecidableEq, Repr

/-- A defined entry of the clip directory (6.1). -/
structure ClipEntry where
  start  : Nat
  region : Nat
  used   : Nat
  state  : ClipState
  honour : Bool
  trim   : Nat
deriving DecidableEq, Repr

/-- The clip write buffer's content, and whether its burst has been granted (R94). -/
structure WriteBuffer where
  clip    : Fin 256
  address : Nat
  words   : List ClipWord
  granted : Bool
deriving DecidableEq, Repr

inductive CapturePhase where
  | idle
  | waitingSound
  | recording
  | closing
deriving DecidableEq, Repr

/-- The capture record and the capture buffer, oldest word first (6.2). -/
structure Capture where
  phase    : CapturePhase
  clip     : Fin 256
  slot     : Fin 64
  stored   : Nat
  heard    : Bool
  emptyRun : Nat
  buffer   : List ClipCell
  /-- The used length the entry will take, and whether the recording ended FULL; meaningful in CLOSING (R98). -/
  used     : Nat
  full     : Bool
deriving DecidableEq, Repr

inductive PlayerState where
  | idle
  | priming
  | playing
deriving DecidableEq, Repr

/-- Whether a boundary of the sequence is still to come, is reported in this period, or has been taken (R104). -/
inductive Boundary where
  | ahead
  | due
  | taken
deriving DecidableEq, Repr

/-- A clip player (6.3). -/
structure Player where
  state     : PlayerState
  /-- The sequence: clip numbers in playing order, the first being the chime when hasChime is set. -/
  sequence  : List (Fin 256)
  hasChime  : Bool
  /-- The sequence position being fetched and the next word offset in it; none is fetched-all. -/
  fetch     : Option (Nat × Nat)
  /-- The prefetch FIFO, oldest first, each word with the sequence position of its clip. -/
  fifo      : List (Nat × ClipWord)
  underrun  : Bool
  chimeEnd  : Boundary
  seqEnd    : Boundary
  /-- Released by the page scheduler: the player enters IDLE in the next cycle period (R100). -/
  releasing : Bool
deriving DecidableEq, Repr

/-- Whose burst occupies the memory, with what it writes (R102). -/
inductive BurstKind where
  | playerRead (player : Fin 4) (position offset length : Nat) (stale : Bool)
  | captureWrite (cells : List ClipCell)
  | bufferWrite (cells : List ClipCell)
deriving DecidableEq, Repr

/-- The burst in progress and the cycle periods it has occupied (R102). -/
structure Burst where
  kind    : BurstKind
  elapsed : Nat
deriving DecidableEq, Repr

structure Clips where
  directory   : Vector (Option ClipEntry) 256
  /-- External clip memory in canonical form: addresses strictly rising, no word equal to what an unlisted address
  reads as. -/
  memory      : List ClipCell
  writeBuffer : Option WriteBuffer
  capture     : Capture
  players     : Vector Player 4
  burst       : Option Burst
deriving DecidableEq, Repr

/-! ### Page scheduler (chapter 7) -/

inductive PageOrigin where
  | request
  | station (port : Fin 32)
deriving DecidableEq, Repr

inductive PageSource where
  | liveSlot (slot : Fin 64)
  | liveInput (input : Fin 32)
  | clips (list : List (Fin 256))
deriving DecidableEq, Repr

inductive PageState where
  | waiting
  | playing
  | suspended
deriving DecidableEq, Repr

inductive PagePhase where
  | chime
  | audio
  | gap
deriving DecidableEq, Repr

/-- A page record (7.1). -/
structure Page where
  id         : PageId
  priority   : Nat
  origin     : PageOrigin
  source     : PageSource
  chime      : Option (Fin 256)
  zones      : ZoneSet
  /-- Fit WHOLE; otherwise PARTIAL. -/
  whole      : Bool
  repeats    : Nat
  /-- Ticks. -/
  gap        : Nat
  /-- Seconds, 0 unlimited. -/
  waitLife   : Nat
  /-- Seconds. -/
  playLimit  : Nat
  gain       : Nat
  arrival    : Nat
  state      : PageState
  granted    : ZoneSet
  joining    : ZoneSet
  player     : Option (Fin 4)
  current    : Nat
  phase      : PagePhase
  waitTimer  : Nat
  playTimer  : Nat
  sourceLoss : Nat
  /-- Computations left before the next repeat starts, when one is to start (R121). -/
  restartIn  : Option Nat
  /-- PAGE STARTED has been posted (R113). -/
  started    : Bool
  /-- PAGE SUSPENDED has been posted in this period (R112). -/
  suspPosted : Bool
deriving DecidableEq, Repr

structure Pages where
  /-- The page queue, in queue order (R109). -/
  queue       : List Page
  /-- The arrival number the next record takes (R106). -/
  nextArrival : Nat
  /-- The causes of this period whose grant passes are still to run (R112). -/
  passes      : Nat
deriving DecidableEq, Repr

/-! ### Intercom switch (chapter 8) -/

/-- An entry of the station table (8.1). -/
structure Station where
  number     : DirNumber
  mic        : Fin 32
  speaker    : Fin 32
  listen     : Option (Fin 24)
  breakIn    : Nat
  pageGroup  : ZoneSet
  pagePrio   : Nat
  pageLimit  : Nat
  volumeZone : Option (Fin 24)
  /-- The cue timer (R133). -/
  cueTimer   : Nat
  /-- The last period of the cue timer has passed (R133). -/
  cueDue     : Bool
deriving DecidableEq, Repr

/-- The presence and the miss count of a port (R132). -/
structure Presence where
  present : Bool
  misses  : Nat
deriving DecidableEq, Repr

inductive Cue where
  | idle
  | busy
  | alarm
  | ringback
  | ringing
  | talking
  | held
deriving DecidableEq, Repr

/-- The kind of a call with its parties (8.4). -/
inductive CallParties where
  | loc (a b : Fin 32)
  | trunkOut (a : Fin 32) (number : DirNumber)
  | trunkIn (a : Fin 32) (number : DirNumber)
deriving DecidableEq, Repr

inductive CallState where
  | wanted
  | ringing
  | connected
  | held
deriving DecidableEq, Repr

/-- A call record (8.4). -/
structure Call where
  id        : CallId
  parties   : CallParties
  emergency : Bool
  headRef   : Word16
  state     : CallState
  answered  : Bool
  tx        : Option (Fin 64)
  rx        : Option (Fin 64)
  ringTimer : Nat
  holdTimer : Nat
deriving DecidableEq, Repr

structure Intercom where
  table    : Vector (Option Station) 32
  presence : Vector Presence 32
  /-- The call table, in ascending order of call id. -/
  calls    : List Call
  lastCall : CallId
  /-- The port the next poll slot polls (R131). -/
  nextPort : Fin 32
  /-- Cycle periods of the present poll slot that have passed (R131). -/
  slotTime : Nat
  /-- The polled port whose slot has no outcome yet. -/
  awaiting : Option (Fin 32)
  /-- The poll last sent: port and cue. -/
  poll     : Option (Fin 32 × Cue)
  /-- Key events of answered replies not yet handled, in reply order (R131). -/
  keys     : List (Fin 32 × Key)
deriving DecidableEq, Repr

/-! ### Alarm engine (chapter 9) -/

inductive StepMode where
  | steady
  | sweep
  | silent
deriving DecidableEq, Repr

/-- A loaded pattern step (9.1). -/
structure PatternStep where
  mode      : StepMode
  duration  : Nat
  n1        : Nat
  n2        : Nat
  amplitude : Nat
  last      : Bool
deriving DecidableEq, Repr

/-- The settings and the debounce state of a contact line (9.4). -/
structure Contact where
  cls       : AlarmClass
  group     : Fin 8
  pattern   : Fin 8
  broadcast : Bool
  /-- The debounced level is ACTIVE. -/
  active    : Bool
  run       : Nat
deriving DecidableEq, Repr

inductive AlarmOrigin where
  | contact (line : Fin 4)
  | request (id : BitVec 8)
  | remote (address : NodeAddr) (group : Fin 8)
deriving DecidableEq, Repr

/-- An alarm record (9.3). -/
structure AlarmRec where
  origin         : AlarmOrigin
  cls            : AlarmClass
  group          : Fin 8
  pattern        : Fin 8
  voiceSlot      : Option (Fin 64)
  voiceFactor    : Nat
  broadcast      : Bool
  /-- SOUNDING; otherwise SILENCED. -/
  sounding       : Bool
  refreshTimer   : Nat
  broadcastTimer : Nat
deriving DecidableEq, Repr

/-- A held tone generator (9.2). -/
structure Generator where
  entry    : Fin 8
  pattern  : Fin 8
  step     : Nat
  elapsed  : Nat
  position : Nat
  divider  : Nat
deriving DecidableEq, Repr

structure Alarm where
  /-- Patterns 1 to 7 at indices 0 to 6, each of 16 step positions, loaded or not (R151). -/
  patterns   : Vector (Vector (Option PatternStep) 16) 7
  groups     : Vector ZoneSet 8
  contacts   : Vector Contact 4
  records    : Vector (Option AlarmRec) 8
  /-- The start order, oldest start first (R154). -/
  startOrder : List (Fin 8)
  generators : Vector (Option Generator) 4
  /-- The winning record of each covered zone (R165). -/
  coverage   : Vector (Option (Fin 8)) 24
deriving DecidableEq, Repr

/-! ### Line supervisor (chapter 10) -/

structure ScanSettings where
  top   : Fin 32
  burst : Nat
  /-- Seconds. -/
  rest  : Nat
deriving DecidableEq, Repr

/-- The scanner's state (10.1), with the choice that falls in the next period told apart. -/
inductive ScanState where
  | stopped
  | stepping (channel : Fin 32)
  | resting
  | searching
  /-- The scanner chooses a channel in the next period (R170, R173). -/
  | choosing
deriving DecidableEq, Repr

structure Window where
  enabled : Bool
  low     : Nat
  high    : Nat
deriving DecidableEq, Repr

inductive FaultKind where
  | short
  | opened
  | noReply
deriving DecidableEq, Repr

/-- The fault record of a channel (10.3). -/
inductive FaultRec where
  | ok
  | suspect (kind : FaultKind)
  | fault (kind : FaultKind) (okRun : Nat)
deriving DecidableEq, Repr

structure Lines where
  settings   : ScanSettings
  pendingSet : Option ScanSettings
  scanner    : ScanState
  position   : Fin 32
  stepTimer  : Nat
  burstCount : Nat
  restTimer  : Nat
  held       : Option Nat
  /-- The window of the step's channel was disabled during the step, so its result is discarded (R174). -/
  discard    : Bool
  windows    : Vector Window 32
  faults     : Vector FaultRec 32
deriving DecidableEq, Repr

/-! ### Ambient tracker (chapter 11) -/

structure TrackerSettings where
  percentile : Nat
  quiet      : Nat
  slope      : Nat
  kmin       : Nat
  kmax       : Nat
  rise       : Nat
  fall       : Nat
  seed       : Nat
deriving DecidableEq, Repr

/-- The last evaluation: n0, n1, n and k_des (R184). -/
structure Evaluation where
  n0   : Nat
  n1   : Nat
  n    : Nat
  kdes : Nat
deriving DecidableEq, Repr

/-- The tracking state of a zone (chapter 11). -/
structure ZoneTracker where
  settings   : TrackerSettings
  k          : Nat
  ce         : Nat
  position   : Nat
  /-- The histogram of each sense position. -/
  hist0      : Vector Nat 16
  hist1      : Vector Nat 16
  freezeSeen : Bool
  freezeTail : Nat
  up         : Nat
  down       : Nat
  last       : Option Evaluation
  /-- The computation with block position 480 has been formed, so the block's end is due (R182). -/
  blockDone  : Bool
deriving DecidableEq, Repr

/-! ### Computations, and the whole state -/

/-- The samples of one computation, kept until the frames and cycles that carry them are sent (R2). -/
structure Computation where
  /-- The output sample Z of each zone. -/
  zones    : Vector Int 24
  /-- The speaker sample of each station port. -/
  speakers : Vector Int 32
  /-- What a channel of role NONE carries (R48, R168). -/
  noneOut  : Int
  /-- The input samples. -/
  inputs   : Vector Int 32
  /-- The output of each player, the empty marker when it is no source. -/
  players  : Vector Int 4
  /-- The mic sample of party A of each CONNECTED trunk call. -/
  trunks   : List (CallId × Int)
deriving DecidableEq, Repr

/-- The whole node, and the queue of commands that wait, first in, first out. -/
structure State where
  ring     : Ring
  ctl      : Control
  ports    : Ports
  mix      : Mix
  scene    : Scene
  feeds    : Vector Feed 4
  clips    : Clips
  pages    : Pages
  icom     : Intercom
  alarm    : Alarm
  lines    : Lines
  trackers : Vector ZoneTracker 24
  /-- The most recent computation, and the one before it. -/
  recent   : Computation
  older    : Computation
  pending  : List Instr
deriving DecidableEq, Repr

/-- Why a step could stop the machine: never. The spec gives every command an effect or says that it changes
nothing, so this type has no constructor, which is safe. -/
inductive Fault
deriving DecidableEq, Repr

/-- Why a command has no meaning in the model. -/
inductive Refusal where
  /-- Raised by an arm of exec whose command has no meaning yet; none is left. Safe: the machine stops. -/
  | notModelled (mnemonic : String)
deriving DecidableEq, Repr

/-! ### The state after power-on -/

/-- Sixty-four slots carrying the empty marker (R8). -/
def markerSlots : Vector RawSample 64 := Vector.replicate 64 0x800000

/-- A cycle the node generates in HUNT, before its alert slot and its inserts are written (R8). -/
def generatedCycle (number : BitVec 16) : Forward :=
  { cycle := { pattern := Config.syncPattern, number := number, control := 0, alert := 0, slots := markerSlots }
    alertFree := true, generated := true }

/-- Zone bank fields at power-on (4.2). -/
def ZoneBank.powerOn : ZoneBank :=
  { mode := .normal, master := 16384, depth := 4096, attack := 64, release := 8 }

/-- An empty bank (R72). -/
def Bank.powerOn : Bank := { routes := [], fields := Vector.replicate 24 ZoneBank.powerOn }

/-- Feed pair f at power-on (5.3, R90). -/
def Feed.powerOn (f : Fin 4) : Feed :=
  { main := ⟨2 * f.val, by omega⟩, backup := ⟨2 * f.val + 1, by omega⟩, delay := 4800, autoRevert := false
    tolerance := 65536, state := .onMain, selectedEmpty := 0, bothEmpty := 0, mainPresent := 0, blockPos := 1
    qualifies := true, blockCount := 0, mismatch := false, blockDone := false }

/-- An idle capture unit (R105). -/
def Capture.idle : Capture :=
  { phase := .idle, clip := 0, slot := 0, stored := 0, heard := false, emptyRun := 0, buffer := [], used := 0
    full := false }

/-- A player in IDLE, at reset and after a release (R100, R105). DESIGN CHOICE (log entry 48): its fetch position is
fetched-all and its underrun reported is no; R100 and R105 give the state, the empty FIFO and the discarded sequence
alone. -/
def Player.idle : Player :=
  { state := .idle, sequence := [], hasChime := false, fetch := none, fifo := [], underrun := false
    chimeEnd := .taken, seqEnd := .taken, releasing := false }

/-- Contact settings and debounce at power-on (9.4). -/
def Contact.powerOn : Contact :=
  { cls := .general, group := 0, pattern := 0, broadcast := true, active := false, run := 0 }

/-- The tracking state of a zone at power-on (R180, R189). -/
def ZoneTracker.powerOn : ZoneTracker :=
  { settings :=
      { percentile := 50, quiet := 4, slope := 1, kmin := 0, kmax := 0, rise := 10, fall := 50, seed := 0 }
    k := 0, ce := 16384, position := 1, hist0 := Vector.replicate 16 0, hist1 := Vector.replicate 16 0
    freezeSeen := false, freezeTail := 0, up := 0, down := 0, last := none, blockDone := false }

/-- A computation of silence: what the pipeline holds before the first computation. -/
def Computation.silent : Computation :=
  { zones := Vector.replicate 24 0, speakers := Vector.replicate 32 0, noneOut := 0
    inputs := Vector.replicate 32 0, players := Vector.replicate 4 Config.emptyMarker, trunks := [] }

/-- The output channel map at power-on (3.6). -/
def powerOnChannel (c : Fin 32) : ChannelRole :=
  if h : c.val < 24 then .zone ⟨c.val, h⟩ else .none

/-- The machine right after power-on (R23, R40, R51, R72, R83, R90, R105, R128, R150, R169, R179, R189). -/
def State.reset : State where
  ring :=
    { rx := .hunt, goodRun := 0, missCount := 0, alignment := 0, stream := [], prevNumber := 0, cycleNumber := 0
      address := 0, inserts := [], sendList := [], taps := Vector.replicate 64 Config.emptyMarker, arrived := none
      forward := generatedCycle 1, sent := none }
  ctl :=
    { buffer := { words := [], tooLong := false, spoiled := false }, reply := none, events := [], catchRec := none
      overflow := false
      settings := { writeMode := .direct, emergency := 0, ringTimeout := 30, holdLimit := 120, callGain := 16384 }
      incoming := none }
  ports :=
    { inFormat := .twos, outFormat := .twos, inputs := Vector.replicate 32 { trim := 0, role := .line }
      channels := Vector.ofFn powerOnChannel, samples := Vector.replicate 32 0
      frameOut := { words := Vector.replicate 32 0, measure := 0 } }
  mix :=
    { bankA := Bank.powerOn, bankB := Bank.powerOn
      zoneLocal := Vector.replicate 24 { level := 16384, trimStep := 0, trimLimit := 8 }
      duck := Vector.replicate 24 16384 }
  scene :=
    { active := .a, state := .idle, length := 0, target := none, step := 0, start := .no, lastDone := false
      handed := 0 }
  feeds := Vector.ofFn Feed.powerOn
  clips :=
    { directory := Vector.replicate 256 none, memory := [], writeBuffer := none, capture := Capture.idle
      players := Vector.replicate 4 Player.idle, burst := none }
  pages := { queue := [], nextArrival := 0, passes := 0 }
  icom :=
    { table := Vector.replicate 32 none, presence := Vector.replicate 32 { present := false, misses := 3 }
      calls := [], lastCall := 0, nextPort := 0, slotTime := 0, awaiting := none, poll := none, keys := [] }
  alarm :=
    { patterns := Vector.replicate 7 (Vector.replicate 16 none), groups := Vector.replicate 8 (BitVec.allOnes 24)
      contacts := Vector.replicate 4 Contact.powerOn, records := Vector.replicate 8 none, startOrder := []
      generators := Vector.replicate 4 none, coverage := Vector.replicate 24 none }
  lines :=
    { settings := { top := 31, burst := 0, rest := 0 }, pendingSet := none, scanner := .stopped, position := 31
      stepTimer := 0, burstCount := 0, restTimer := 0, held := none, discard := false
      windows := Vector.replicate 32 { enabled := false, low := 0, high := 4094 }
      faults := Vector.replicate 32 .ok }
  trackers := Vector.replicate 24 ZoneTracker.powerOn
  recent := Computation.silent
  older := Computation.silent
  pending := []

end Sys2Proof.Machine
end

