-- ==== Sys2Proof/Machine/Operands.lean ====
section
/-! DEFINITION. Operand forms: how the 16-bit parameter words of a request are read as fields, and how fields are
written into reply words. A field outside its values reads as none, which the request's own rule turns into a
status. -/

namespace Sys2Proof.Machine

/-- A number read as an index below n. -/
def index (n x : Nat) : Option (Fin n) := if h : x < n then some ⟨x, h⟩ else none

/-- A word read as an index below n. -/
def wordIndex (n : Nat) (w : Word16) : Option (Fin n) := index n w.toNat

/-- A word coded `base..base+n-1` read as an index below n. -/
def codedIndex (base n : Nat) (w : Word16) : Option (Fin n) :=
  if base ≤ w.toNat then index n (w.toNat - base) else none

/-- A word read as an index below n, or as absent when it holds the given code (255 in R130 and R159). -/
def optionalIndex (n absent : Nat) (w : Word16) : Option (Option (Fin n)) :=
  if w.toNat = absent then some none else (wordIndex n w).map some

/-- A high and a low part read as one number: the high part times 65,536 plus the low part (R84, R92, R94, R152). -/
def wide (high low : Word16) : Nat := high.toNat * 65536 + low.toNat

/-- The high and the low part of a number (R95). -/
def wideHigh (n : Nat) : Word16 := BitVec.ofNat 16 (n / 65536)
def wideLow (n : Nat) : Word16 := BitVec.ofNat 16 n

/-- A value brought into `low..high`, the lower bound first (3.11). -/
def clampTo (low high n : Nat) : Nat := min high (max low n)

/-- The bits `first..first+len-1` of a word, as a number. -/
def field (w : Word16) (first len : Nat) : Nat := (w.extractLsb' first len).toNat

/-! ### Zone sets -/

/-- All 24 zones, in ascending order. -/
def allZones : List (Fin 24) := List.ofFn id

/-- The membership of a zone in a zone set. -/
def hasZone (zs : ZoneSet) (z : Fin 24) : Bool := zs.getLsbD z.val

/-- The set of one zone. -/
def zoneBit (z : Fin 24) : ZoneSet := BitVec.twoPow 24 z.val

/-- The set of the zones for which a test holds. -/
def zonesWhere (f : Fin 24 → Bool) : ZoneSet :=
  allZones.foldl (fun zs z => if f z then zs ||| zoneBit z else zs) 0

/-- A zone set given as zones 0..15 and zones 16..23, whose bits 15 to 8 are zero (R107, R130, R158). -/
def zoneSetOf (low high : Word16) : Option ZoneSet :=
  if high.toNat ≤ 255 then some (high.setWidth 8 ++ low : BitVec 24) else none

/-- The two reply words of a zone set (R127). -/
def zoneSetLow (zs : ZoneSet) : Word16 := zs.extractLsb' 0 16
def zoneSetHigh (zs : ZoneSet) : Word16 := (zs.extractLsb' 16 8).setWidth 16

/-! ### Coded operands -/

/-- The source word of LOAD ROUTE and CLEAR ROUTE (R53). -/
def routeSource (w : Word16) : Option RouteSource :=
  match wordIndex 64 w, codedIndex 256 32 w, codedIndex 512 4 w with
  | some s, _, _ => some (.ringSlot s)
  | none, some i, _ => some (.localInput i)
  | none, none, some f => some (.feed f)
  | none, none, none => none

/-- The source word of SET INSERT (R12). -/
def insertSource (w : Word16) : Option InsertSource :=
  match codedIndex 256 32 w, codedIndex 512 24 w, codedIndex 768 4 w with
  | some i, _, _ => some (.localInput i)
  | none, some z, _ => some (.zone z)
  | none, none, some p => some (.player p)
  | none, none, none => none

/-- The role word of SET CHANNEL (R49). -/
def channelRole (w : Word16) : Option ChannelRole :=
  match codedIndex 256 24 w, codedIndex 512 32 w with
  | some z, _ => some (.zone z)
  | none, some p => some (.station p)
  | none, none => if w.toNat = 0 then some .none else none

/-- The role word of SET INPUT: 0 is LINE, 256 plus twice the zone plus the position is SENSE (R46). -/
def inputRole (w : Word16) : Option InputRole :=
  if w.toNat = 0 then some .line
  else if 256 ≤ w.toNat then
    (index 24 ((w.toNat - 256) / 2)).map
      (fun z => .sense z ⟨(w.toNat - 256) % 2, Nat.mod_lt _ (by omega)⟩)
  else none

/-- The role word of LOAD ROUTE (R54). -/
def routeRole (w : Word16) : Option RouteRole :=
  if w.toNat = 0 then some .programme else if w.toNat = 1 then some .showAudio else none

/-- The mode word and the threshold word of SET ZONE (R57). -/
def zoneMode (mode threshold : Word16) : Option ZoneMode :=
  if mode.toNat = 0 then some .normal
  else if mode.toNat = 1 then
    if 1 ≤ threshold.toNat ∧ threshold.toNat ≤ 15 then some (.showLocked threshold.toNat) else none
  else if mode.toNat = 2 then some .off
  else none

/-- A word that holds 0 or 1. -/
def flagWord (w : Word16) : Option Bool :=
  if w.toNat = 0 then some false else if w.toNat = 1 then some true else none

/-- A class code (R157, R159). -/
def alarmClass (n : Nat) : Option AlarmClass :=
  match n with
  | 0 => some .test
  | 1 => some .localArea
  | 2 => some .crew
  | 3 => some .general
  | _ => none

/-- The rank of a class, which is also its code (1.6, 9.3). -/
def AlarmClass.rank : AlarmClass → Nat
  | .test => 0
  | .localArea => 1
  | .crew => 2
  | .general => 3

/-- The clip numbers of a clip list: two a word, high byte first (R107). -/
def clipList (n : Nat) (ws : List Word16) : List (Fin 256) :=
  (ws.flatMap (fun w => [(w.extractLsb' 8 8).toFin, (w.extractLsb' 0 8).toFin])).take n

/-- The source word and the clip list of QUEUE PAGE (R107). -/
def pageSource (w : Word16) (list : List Word16) : Option PageSource :=
  match wordIndex 64 w, codedIndex 256 32 w, codedIndex 513 8 w with
  | some s, _, _ => some (.liveSlot s)
  | none, some i, _ => some (.liveInput i)
  | none, none, some n => some (.clips (clipList (n.val + 1) list))
  | none, none, none => none

/-- A directory number 1..9,999 in a word (R130, R139). -/
def dirNumber (w : Word16) : Option DirNumber :=
  if 1 ≤ w.toNat ∧ w.toNat ≤ 9999 then some (w.setWidth 14) else none

/-- A call id or an alarm request id 1..255 in a word (R140, R159). -/
def byteId (w : Word16) : Option (BitVec 8) :=
  if 1 ≤ w.toNat ∧ w.toNat ≤ 255 then some (w.setWidth 8) else none

end Sys2Proof.Machine
end

