-- ==== Sys2Proof/Machine/Flags.lean ====
section
/-! DEFINITION. The words on the line: the checks of control and alert words, the layouts of the control word, the
alert word, the event record, the count word and the ECHO, and the codes in them (2.8, R41). -/

namespace Sys2Proof.Machine

/-! ### Checks (R41) -/

/-- One bit fed into the check register of width w with generator pattern g: the bit is combined with the top bit,
the register is shifted up, and g is combined in when the combined bit is 1. -/
def checkStep {w : Nat} (g : BitVec w) (reg : BitVec w) (bit : Bool) : BitVec w :=
  if bit != reg.msb then (reg <<< 1) ^^^ g else reg <<< 1

/-- The check of a word's other bits, fed most significant first. -/
def checkOf {w n : Nat} (g : BitVec w) (body : BitVec n) : BitVec w :=
  ((List.range n).map body.getMsbD).foldl (checkStep g) 0

/-- The check of a control word over its bits 31 to 7. -/
def controlCheck (body : BitVec 25) : BitVec 7 := checkOf 0x09 body

/-- The check of an alert word over its bits 25 to 4. -/
def alertCheck (body : BitVec 22) : BitVec 4 := checkOf 0x3 body

/-! ### Control words (2.8.2) -/

/-- The kinds of control word with a code. -/
inductive WordKind where
  | idle
  | param
  | close
  | reply
  | echo
  | fault
deriving DecidableEq, Repr

def WordKind.code : WordKind → BitVec 3
  | .idle => 0
  | .param => 1
  | .close => 2
  | .reply => 3
  | .echo => 4
  | .fault => 5

/-- A control word with its correct check. -/
def controlWord (kind : WordKind) (address : NodeAddr) (payload : BitVec 16) : BitVec 32 :=
  let body : BitVec 25 := kind.code ++ address ++ payload
  body ++ controlCheck body

/-- A control word is bad when its check is wrong or its kind is 6 or 7 (R25). -/
def badWord (w : BitVec 32) : Bool :=
  (w.extractLsb' 0 7 != controlCheck (w.extractLsb' 7 25)) || decide (6 ≤ (w.extractLsb' 29 3).toNat)

/-- The address field of a control word. -/
def wordAddress (w : BitVec 32) : NodeAddr := w.extractLsb' 23 6

/-- The fault codes (2.8.2). -/
def faultCheck : BitVec 8 := 1
def faultOverlap : BitVec 8 := 2

/-- The payload of a FAULT word: the fault code and the reporting node's address (2.8.2). -/
def faultPayload (code : BitVec 8) (reporter : NodeAddr) : BitVec 16 := code ++ reporter ++ (0 : BitVec 2)

/-- The status codes (2.8.2). -/
def Status.code : Status → BitVec 5
  | .ok => 0
  | .accepted => 1
  | .unknown => 2
  | .badLength => 3
  | .outOfRange => 4
  | .busy => 5
  | .full => 6
  | .duplicate => 7
  | .notFound => 8
  | .inUse => 9
  | .conflict => 10
  | .notAllowed => 11
  | .check => 12
  | .overlap => 13

/-- The payload of an ECHO word: request code, status, events-pending flag (2.8.2). -/
def echoPayload (code : BitVec 8) (status : Status) (eventsPending : Bool) : BitVec 16 :=
  code ++ status.code ++ BitVec.ofBool eventsPending ++ (0 : BitVec 2)

/-! ### Alert words (2.8.3) -/

/-- An alert word with its correct check; kind 1 is ON and 2 is OFF. -/
def alertWord (kind : BitVec 2) (origin : NodeAddr) (group : BitVec 3) (cls : BitVec 2) (pattern : BitVec 3)
    (hop : BitVec 6) : BitVec 26 :=
  let body : BitVec 22 := kind ++ origin ++ group ++ cls ++ pattern ++ hop
  body ++ alertCheck body

/-- The check of an arriving alert word is right. -/
def alertCheckOk (w : BitVec 26) : Bool := w.extractLsb' 0 4 == alertCheck (w.extractLsb' 4 22)

def alertKind (w : BitVec 26) : BitVec 2 := w.extractLsb' 24 2
def alertOrigin (w : BitVec 26) : NodeAddr := w.extractLsb' 18 6
def alertGroup (w : BitVec 26) : Fin 8 := (w.extractLsb' 15 3).toFin
def alertPattern (w : BitVec 26) : Fin 8 := (w.extractLsb' 10 3).toFin
def alertHop (w : BitVec 26) : BitVec 6 := w.extractLsb' 4 6

/-- The class field; its two bits hold every class. -/
def alertClass (w : BitVec 26) : AlarmClass :=
  (alarmClass (w.extractLsb' 13 2).toNat).getD .general

/-- An alert word with its hop count incremented and its check computed anew (R20). -/
def alertNextHop (w : BitVec 26) : BitVec 26 :=
  alertWord (alertKind w) (alertOrigin w) (w.extractLsb' 15 3) (w.extractLsb' 13 2) (w.extractLsb' 10 3)
    (alertHop w + 1)

/-- The alert word of an entry of the send list, written by the node of the given address (R22). -/
def sendWordBits (origin : NodeAddr) (w : SendWord) : BitVec 26 :=
  alertWord (if w.on then 1 else 2) origin (BitVec.ofNat 3 w.group.val) (BitVec.ofNat 2 w.cls.rank)
    (BitVec.ofNat 3 w.pattern.val) 0

/-! ### Event records (2.8.4) -/

def EventKind.code : EventKind → BitVec 5
  | .pageStarted => 1
  | .pageSuspended => 2
  | .pageEnded => 3
  | .callWanted => 4
  | .callAnswered => 5
  | .callEnded => 6
  | .alarmBegun => 7
  | .alarmEnded => 8
  | .lineFault => 9
  | .lineRestored => 10
  | .feedChanged => 11
  | .feedMismatch => 12
  | .captureDone => 13
  | .captureFailed => 14
  | .underrun => 15
  | .takeDone => 16
  | .ringLost => 17
  | .ringRegained => 18
  | .slotClash => 19
  | .stationLost => 20
  | .stationFound => 21
  | .nodeReset => 22

/-- The two reply words of an event record. -/
def EventRec.replyWords (e : EventRec) : List Word16 := [e.kind.code ++ e.detail ++ e.stamp, e.subject]

/-- The count word of READ EVENTS. -/
def countWord (returned remaining : Nat) (overflow : Bool) : Word16 :=
  BitVec.ofNat 3 returned ++ BitVec.ofNat 5 remaining ++ BitVec.ofBool overflow ++ (0 : BitVec 7)

/-- The stamp of an event: bits 15 to 9 of the node cycle number. -/
def eventStamp (number : BitVec 16) : BitVec 7 := number.extractLsb' 9 7

end Sys2Proof.Machine
end

