-- ==== Sys2Proof/Machine/Ops.lean ====
section
/-! DEFINITION. Operations every block uses: writing one block of the state or one entry of a table, the sample
arithmetic of 3.2 to 3.5 and R42, posting an event (R35), the request buffer (R28), the control slot of the cycle to
be sent (R8, R24), taps (R10), the presented holder of a zone (R110), coverage (R165), the activity of inserts (R15,
R16), the active bank (R73), the state of a station (R133). -/

namespace Sys2Proof.Machine

/-! ### Writing one block, or one entry of a table -/

def State.setRing (s : State) (x : Ring) : State := { s with ring := x }
def State.setCtl (s : State) (x : Control) : State := { s with ctl := x }
def State.setPorts (s : State) (x : Ports) : State := { s with ports := x }
def State.setMix (s : State) (x : Mix) : State := { s with mix := x }
def State.setScene (s : State) (x : Scene) : State := { s with scene := x }
def State.setFeeds (s : State) (x : Vector Feed 4) : State := { s with feeds := x }
def State.setClips (s : State) (x : Clips) : State := { s with clips := x }
def State.setPages (s : State) (x : Pages) : State := { s with pages := x }
def State.setIcom (s : State) (x : Intercom) : State := { s with icom := x }
def State.setAlarm (s : State) (x : Alarm) : State := { s with alarm := x }
def State.setLines (s : State) (x : Lines) : State := { s with lines := x }
def State.setTrackers (s : State) (x : Vector ZoneTracker 24) : State := { s with trackers := x }
def State.setSamples (s : State) (recent older : Computation) : State := { s with recent := recent, older := older }

/-- A table with one entry replaced. -/
def put {α : Type} {n : Nat} (v : Vector α n) (i : Fin n) (x : α) : Vector α n := v.set i.val x i.isLt

/-- A table with every entry replaced by a function of its index and its content. -/
def mapTable {α β : Type} {n : Nat} (f : Fin n → α → β) (v : Vector α n) : Vector β n :=
  Vector.ofFn (fun i => f i v[i])

/-- The indices of a table, in ascending order. -/
def indices (n : Nat) : List (Fin n) := List.ofFn id

/-! ### Sample arithmetic -/

/-- Clamp to the sample range (R42). -/
def saturate (x : Int) : Int := max (-Config.sampleMax) (min Config.sampleMax x)

/-- Division by a power of two, rounded with halves toward plus infinity (3.5). -/
def roundDiv (d : Nat) (x : Int) : Int := (x + ((d / 2 : Nat) : Int)) / (d : Int)

/-- Rounded division by a number that need not be a power of two: doubled, T added, divided by 2T, floor (3.5). -/
def roundDivBy (t : Nat) (x : Int) : Int := (2 * x + (t : Int)) / ((2 * t : Nat) : Int)

/-- The empty marker taken as 0 (R53, R146, R167). -/
def orSilence (x : Int) : Int := if x = Config.emptyMarker then 0 else x

/-- A sample as the 24-bit word of a ring slot (R41). -/
def rawOf (x : Int) : RawSample := BitVec.ofInt 24 x

/-! ### Events (R35) -/

def Control.post (c : Control) (e : EventRec) : Control :=
  if c.events.length < 16 then { c with events := c.events ++ [e] }
  else { c with catchRec := some e, overflow := true }

/-- A block posts an event, stamped with the node cycle number. -/
def State.post (s : State) (kind : EventKind) (subject : Word16) (detail : BitVec 4) : State :=
  s.setCtl (s.ctl.post
    { kind := kind, stamp := eventStamp s.ring.cycleNumber, subject := subject, detail := detail })

/-! ### The request buffer and the control slot -/

/-- The clear state of the request buffer (2.2). -/
def RequestBuffer.clear : RequestBuffer := { words := [], tooLong := false, spoiled := false }

/-- The request buffer returns to its clear state (R28). -/
def State.clearBuffer (s : State) : State := s.setCtl { s.ctl with buffer := RequestBuffer.clear }

/-- The request buffer is marked SPOILED (R25, R26). -/
def State.spoilBuffer (s : State) : State :=
  s.setCtl { s.ctl with buffer := { s.ctl.buffer with spoiled := true } }

/-- The control slot of the cycle to be sent carries a word (R2). -/
def State.putControl (s : State) (w : BitVec 32) : State :=
  s.setRing { s.ring with
    forward := { s.ring.forward with cycle := { s.ring.forward.cycle with control := w } } }

/-- What becomes of a control word outside LOCKED: forwarded unchanged in SUSPECT; in HUNT the node sends the idle
word of its generated cycle (R8, R24). -/
def State.passControl (s : State) (w : BitVec 32) : State :=
  match s.ring.rx with
  | .hunt => s
  | _ => s.putControl w

/-- A control word is acted on only while the receiver is LOCKED (R7, R24). -/
def State.heard (s : State) : Bool := s.ring.rx == .locked

/-- A FAULT word of the node, for the address field of the word it replaces (R25, R32). -/
def State.faultWord (s : State) (address : NodeAddr) (code : BitVec 8) : BitVec 32 :=
  controlWord .fault address (faultPayload code s.ring.address)

/-! ### Taps and audio sources -/

/-- The tap of a slot (R10). -/
def State.tap (s : State) (slot : Fin 64) : Int := s.ring.taps[slot]

/-- The input sample of an input in the present computation (R45). -/
def State.inputSample (s : State) (i : Fin 32) : Int := s.ports.samples[i]

/-! ### Banks (R73) -/

def BankId.other : BankId → BankId
  | .a => .b
  | .b => .a

def Mix.bank (m : Mix) : BankId → Bank
  | .a => m.bankA
  | .b => m.bankB

def Mix.setBank (m : Mix) (id : BankId) (b : Bank) : Mix :=
  match id with
  | .a => { m with bankA := b }
  | .b => { m with bankB := b }

/-- The active bank, and the edit bank. -/
def State.activeBank (s : State) : Bank := s.mix.bank s.scene.active
def State.editBank (s : State) : Bank := s.mix.bank s.scene.active.other

/-- The zone bank fields that govern a zone (4.2). -/
def State.zoneFields (s : State) (z : Fin 24) : ZoneBank := s.activeBank.fields[z]

/-! ### Holders (R110) -/

/-- A page is audible while PLAYING in CHIME or AUDIO. -/
def Page.audible (p : Page) : Bool := p.state == .playing && p.phase != .gap

/-- The holder page of a zone. -/
def State.holder (s : State) (z : Fin 24) : Option Page := s.pages.queue.find? (fun p => hasZone p.granted z)

/-- The zone's holder page is audible. -/
def State.audibleIn (s : State) (z : Fin 24) : Bool := (s.holder z).any Page.audible

/-- The page that holds a player (6.3). -/
def State.playerPage (s : State) (p : Fin 4) : Option Page := s.pages.queue.find? (fun q => q.player == some p)

/-! ### Coverage (R165) -/

/-- The winning record of a covered zone, with its entry. -/
def State.winner (s : State) (z : Fin 24) : Option (Fin 8 × AlarmRec) :=
  match s.alarm.coverage[z] with
  | none => none
  | some e => (s.alarm.records[e]).map (fun r => (e, r))

/-- A zone is covered by a SOUNDING record. -/
def State.covered (s : State) (z : Fin 24) : Bool := (s.alarm.coverage[z]).isSome

/-- A zone is under GENERAL coverage (8.6). -/
def State.underGeneral (s : State) (z : Fin 24) : Bool := (s.winner z).any (fun w => w.2.cls == .general)

/-! ### Inserts (R14 to R16) -/

/-- The source of an insert is active (R15). -/
def State.sourceActive (s : State) : InsertSource → Bool
  | .localInput _ => true
  | .zone _ => true
  | .player p => (s.clips.players[p]).state != .idle
  | .trunkCall id => s.icom.calls.any (fun c => c.id == id && c.state == .connected)

/-- A static insert, loaded by the ring head (R11). -/
def Insert.static (i : Insert) : Bool :=
  match i.source with
  | .trunkCall _ => false
  | _ => true

/-- An insert names a slot. -/
def State.slotNamed (s : State) (slot : Fin 64) : Bool := s.ring.inserts.any (fun i => i.slot == slot)

/-- The activation of a source ends: clash count 0 and clash reported no (R16). -/
def State.endActivation (s : State) (source : InsertSource) : State :=
  s.setRing { s.ring with
    inserts := s.ring.inserts.map
      (fun i => if i.source == source then { i with clash := 0, reported := false } else i) }

/-! ### Stations (R133) -/

/-- The station states (8.3). -/
inductive StationState where
  | absent
  | idle
  | calling
  | ringing
  | talking
  | held
deriving DecidableEq, Repr

/-- The party stations of a call: A, and B of a LOCAL call (8.4). -/
def Call.stations (c : Call) : List (Fin 32) :=
  match c.parties with
  | .loc a b => [a, b]
  | .trunkOut a _ => [a]
  | .trunkIn a _ => [a]

/-- A trunk call. -/
def Call.trunk (c : Call) : Bool :=
  match c.parties with
  | .loc _ _ => false
  | _ => true

/-- The call a station is a party to. -/
def State.callOf (s : State) (port : Fin 32) : Option Call := s.icom.calls.find? (fun c => c.stations.contains port)

/-- The state a party station has from its call (R133). -/
def Call.stationState (c : Call) (port : Fin 32) : StationState :=
  match c.state with
  | .connected => .talking
  | .held => .held
  | .wanted => .calling
  | .ringing =>
    match c.parties with
    | .loc a _ => if port = a then .calling else .ringing
    | .trunkOut _ _ => .calling
    | .trunkIn _ _ => if c.answered then .talking else .ringing

/-- The state of a port's station (R133). -/
def State.stationState (s : State) (port : Fin 32) : StationState :=
  if (s.icom.presence[port]).present then
    match s.callOf port with
    | some c => c.stationState port
    | none => .idle
  else .absent

/-- The entry of the station table that holds a directory number (R129). -/
def State.stationWith (s : State) (n : DirNumber) : Option (Fin 32) :=
  (indices 32).find? (fun p => (s.icom.table[p]).any (fun e => e.number == n))

end Sys2Proof.Machine
end

