-- ==== Sys2Proof/Machine/Requests.lean ====
section
/-! DEFINITION. What becomes of a CLOSE word, whatever its request: who hears it, when it executes, which status and
reply it leaves (R24, R28 to R34). The requests themselves are in their owners' files. -/

namespace Sys2Proof.Machine

/-- What the owner of a request answers: the state it leaves, the status and the REPLY words (R29, R30). -/
structure Answer where
  state  : State
  status : Status
  reply  : List Word16

/-- A refused request leaves the state as it was and has no REPLY words (R30). -/
def Answer.refuse (status : Status) (s : State) : Answer := { state := s, status := status, reply := [] }

/-- A request answered OK without REPLY words. -/
def Answer.ok (s : State) : Answer := { state := s, status := .ok, reply := [] }

/-- A request answered OK with REPLY words. -/
def Answer.report (s : State) (reply : List Word16) : Answer := { state := s, status := .ok, reply := reply }

/-- The answer to an own CLOSE: CHECK for a spoiled buffer, BAD LENGTH for a buffer that was too long, and otherwise
what the owner says of the parameter words (R29). -/
def examine (owner : List Word16 → State → Answer) (s : State) : Answer :=
  if s.ctl.buffer.spoiled then .refuse .check s
  else if s.ctl.buffer.tooLong then .refuse .badLength s
  else owner s.ctl.buffer.words s

/-- The node consumes a CLOSE and answers it: the idle word goes into its slot, the reply becomes pending and the
buffer is cleared (R28, R29, R31). -/
def State.consume (code : BitVec 8) (a : Answer) : State :=
  let s := a.state.putControl 0
  s.setCtl { s.ctl with
    buffer := RequestBuffer.clear, reply := some { words := a.reply, code := code, status := a.status } }

/-- An own CLOSE that meets a pending reply is replaced by FAULT OVERLAP and clears the buffer (R32). -/
def State.overlapClose (s : State) (address : NodeAddr) : State :=
  (s.putControl (s.faultWord address faultOverlap)).clearBuffer

/-- A CLOSE the node forwards unchanged; the buffer is cleared (R24, R28). -/
def State.forwardClose (s : State) (address : NodeAddr) (code low : BitVec 8) : State :=
  (s.putControl (controlWord .close address (code ++ low))).clearBuffer

/-- A CLOSE word with its request code: handled when heard, by its address (R24). `universal` is what the node does
when the address is 0; `owner` is the request's own examination when the CLOSE is own. -/
def closeWord (universal : State → State) (owner : List Word16 → State → Answer) (code : BitVec 8)
    (address : NodeAddr) (low : BitVec 8) (s : State) : State :=
  if s.heard then
    if address = 0 then universal s
    else if address = s.ring.address then
      if s.ctl.reply.isSome then s.overlapClose address
      else State.consume code (examine owner s)
    else s.forwardClose address code low
  else s.passControl (controlWord .close address (code ++ low))

/-- A request that is executed only when addressed to the node: as a universal CLOSE it is forwarded unchanged and
executes nothing (R34). -/
def request (code : BitVec 8) (owner : List Word16 → State → Answer) (address : NodeAddr) (low : BitVec 8)
    (s : State) : State :=
  closeWord (fun s => s.forwardClose 0 code low) owner code address low s

/-- A universal request every node executes with its buffer as it stands and forwards (RELEASE ALL, TAKE): nothing
is executed from a spoiled or too long buffer, and a refusal leaves the state unchanged (R34). -/
def universalRequest (code : BitVec 8) (owner : List Word16 → State → Answer) (low : BitVec 8) (s : State) : State :=
  (examine owner s).state.forwardClose 0 code low

end Sys2Proof.Machine
end

