-- ==== Sys2Proof/Machine/Ring.lean ====
section
/-! DEFINITION. The ring interface's tables (chapter 1): inserts and their requests, slot clash, the alert send list,
and the cycle the node sends. The receiver is in Period.lean, the arrival of an alert word in Alarms.lean. -/

namespace Sys2Proof.Machine

/-! ### Inserts -/

/-- The static inserts held (R11). -/
def Ring.staticCount (r : Ring) : Nat := (r.inserts.filter Insert.static).length

/-- The insert table with one more insert, its clash count 0 and clash reported no (R12, R14). -/
def State.addInsert (s : State) (slot : Fin 64) (source : InsertSource) : State :=
  s.setRing { s.ring with
    inserts := s.ring.inserts ++ [{ slot := slot, source := source, clash := 0, reported := false }] }

/-- The insert table without the inserts of a slot (R13). -/
def State.removeInsert (s : State) (slot : Fin 64) : State :=
  s.setRing { s.ring with inserts := s.ring.inserts.filter (fun i => i.slot != slot) }

/-- The insert table without the dynamic insert of a call (R14). -/
def State.removeTrunkInsert (s : State) (id : CallId) : State :=
  s.setRing { s.ring with inserts := s.ring.inserts.filter (fun i => i.source != .trunkCall id) }

def setInsert (ws : List Word16) (s : State) : Answer :=
  match ws with
  | [slot, source] =>
    match wordIndex 64 slot, insertSource source with
    | some t, some src =>
      if s.slotNamed t then .refuse .conflict s
      else if 32 ≤ s.ring.staticCount then .refuse .full s
      else .ok (s.addInsert t src)
    | _, _ => .refuse .outOfRange s
  | _ => .refuse .badLength s

def clearInsert (ws : List Word16) (s : State) : Answer :=
  match ws with
  | [slot] =>
    match wordIndex 64 slot with
    | some t =>
      if s.ring.inserts.any (fun i => i.slot == t && !i.static) then .refuse .inUse s
      else if s.slotNamed t = false then .refuse .notFound s
      else .ok (s.removeInsert t)
    | none => .refuse .outOfRange s
  | _ => .refuse .badLength s

/-! ### Slot clash (R16) -/

/-- The source kinds of SLOT CLASH (2.8.4). -/
def InsertSource.kindCode : InsertSource → BitVec 4
  | .localInput _ => 1
  | .zone _ => 2
  | .player _ => 3
  | .trunkCall _ => 4

/-- The clash counts after an arrival, LOCKED or not (R16). -/
def State.countClashes (s : State) (slots : Vector RawSample 64) : State :=
  s.setRing { s.ring with
    inserts := s.ring.inserts.map (fun i =>
      if s.heard then
        if s.sourceActive i.source then
          { i with clash := if (slots[i.slot]).toInt = Config.emptyMarker then 0 else min 48 (i.clash + 1) }
        else i
      else { i with clash := 0 }) }

/-- The insert of a slot reports its clash when its count has reached 48 and it has not reported (R16). DESIGN CHOICE
(log entry 54): an insert whose activation ends, or that is removed, in the period of the 48th clash before this is taken
reports nothing. -/
def slotClash (slot : Fin 64) (s : State) : State :=
  match s.ring.inserts.find? (fun i => i.slot == slot) with
  | some i =>
    if 48 ≤ i.clash ∧ i.reported = false then
      (s.setRing { s.ring with
        inserts := s.ring.inserts.map (fun j => if j.slot = slot then { j with reported := true } else j) }).post
        .slotClash (BitVec.ofNat 16 slot.val) i.source.kindCode
    else s
  | none => s

/-! ### The alert send list (R21, R22) -/

/-- A word joins the tail of the list; among the words that joined in the same period the entries ascend (R21). -/
def joinSend (w : SendWord) : List SendWord → List SendWord
  | [] => [w]
  | x :: rest => if x.fresh && decide (w.entry < x.entry) then w :: x :: rest else x :: joinSend w rest

/-- One placement in the send list: a word of the same entry is replaced in place (R21). -/
def placeSend (w : SendWord) (l : List SendWord) : List SendWord :=
  if l.any (fun x => x.entry == w.entry) then
    l.map (fun x => if x.entry = w.entry then { w with fresh := x.fresh } else x)
  else joinSend { w with fresh := true } l

def State.placeSend (s : State) (w : SendWord) : State :=
  s.setRing { s.ring with sendList := Machine.placeSend w s.ring.sendList }

/-- The alert slot of the cycle to be sent carries a word; it is free for the node's own word or not. -/
def State.putAlert (s : State) (w : BitVec 26) (free : Bool) : State :=
  s.setRing { s.ring with
    forward := { s.ring.forward with
      cycle := { s.ring.forward.cycle with alert := w }, alertFree := free } }

/-- The oldest word of the send list goes into a free alert slot of a NAMED node (R22). -/
def alertSend (s : State) : State :=
  if s.ring.forward.alertFree = true ∧ s.ring.address ≠ 0 then
    match s.ring.sendList with
    | w :: rest => (s.setRing { s.ring with sendList := rest }).putAlert (sendWordBits s.ring.address w) false
    | [] => s
  else s

/-! ### The cycle the node sends (R2, R8, R15) -/

/-- What an insert writes: its source's sample from a computation, or the empty marker of an inactive source. The
computation holds the marker for a player that was no source, and no sample for a call that was not CONNECTED. -/
def Computation.insertSample (k : Computation) : InsertSource → Int
  | .localInput i => k.inputs[i]
  | .zone z => k.zones[z]
  | .player p => k.players[p]
  | .trunkCall id => ((k.trunks.find? (fun t => t.1 == id)).map (·.2)).getD Config.emptyMarker

/-- The audio slots of a cycle with the node's inserts written. -/
def State.insertedSlots (s : State) (slots : Vector RawSample 64) (k : Computation) : Vector RawSample 64 :=
  s.ring.inserts.foldl (fun v i => put v i.slot (rawOf (k.insertSample i.source))) slots

/-- The cycle of this period is sent, its inserts from the computation made two periods before (R2). -/
def State.sendCycle (s : State) (k : Computation) : State :=
  let c := s.ring.forward.cycle
  s.setRing { s.ring with sent := some { c with slots := s.insertedSlots c.slots k } }

/-- A generated cycle that has been sent carries the node cycle number in HUNT (R9). DESIGN CHOICE (log entry 57): the
number changes with the sending in CYCLE_PERIOD, so what stands before it in the period carries the number before. -/
def State.countGenerated (s : State) : State :=
  if s.ring.forward.generated = true ∧ s.ring.rx = .hunt then
    s.setRing { s.ring with cycleNumber := s.ring.forward.cycle.number }
  else s

/-- The cycle to be sent in the next period: the one that has arrived, or in HUNT one the node generates (R2, R8).
Words that joined the send list are no longer of the present period. -/
def State.nextForward (s : State) : State :=
  s.setRing { s.ring with
    forward :=
      match s.ring.rx, s.ring.arrived with
      | .hunt, _ => generatedCycle (s.ring.cycleNumber + 1)
      | _, some c => { cycle := c, alertFree := false, generated := false }
      | _, none => generatedCycle (s.ring.cycleNumber + 1)
    arrived := none
    sendList := s.ring.sendList.map (fun w => { w with fresh := false }) }

/-! ### Meanings -/

/-- SET_INSERT (R12). -/
def execSetInsert (address : NodeAddr) (low : BitVec 8) (s : State) : Host.Outcome State Fault Refusal :=
  .next (request 0x10 setInsert address low s)

/-- CLEAR_INSERT (R13). -/
def execClearInsert (address : NodeAddr) (low : BitVec 8) (s : State) : Host.Outcome State Fault Refusal :=
  .next (request 0x11 clearInsert address low s)

/-- SLOT_CLASH (R16). -/
def execSlotClash (slot : Fin 64) (s : State) : Host.Outcome State Fault Refusal := .next (slotClash slot s)

/-- ALERT_SEND (R22). -/
def execAlertSend (s : State) : Host.Outcome State Fault Refusal := .next (alertSend s)

end Sys2Proof.Machine
end

