-- ==== Sys2Proof/Machine/Clips.lean ====
section
/-! DEFINITION. The clip engine (chapter 6): clip memory, the directory and its requests, the capture unit, the
players, and the memory arbiter. -/

namespace Sys2Proof.Machine

/-! ### Clip memory -/

/-- The word at an address of clip memory. -/
def memRead : List ClipCell → Nat → ClipWord
  | [], _ => Config.unwrittenClipWord
  | (a, w) :: rest, x => if a = x then w else memRead rest x

/-- Clip memory with one word written, in canonical form: a word equal to what an unlisted address reads as is not
listed. -/
def memWrite : List ClipCell → Nat → ClipWord → List ClipCell
  | [], x, w => if w = Config.unwrittenClipWord then [] else [(x, w)]
  | (a, v) :: rest, x, w =>
    if x < a then
      if w = Config.unwrittenClipWord then (a, v) :: rest else (x, w) :: (a, v) :: rest
    else if x = a then
      if w = Config.unwrittenClipWord then rest else (x, w) :: rest
    else (a, v) :: memWrite rest x w

/-- Words written at their addresses, in order. The memory has 22 address lines, so an address counts modulo
4,194,304 (00_scope 5). -/
def memWriteAll (m : List ClipCell) (cells : List ClipCell) : List ClipCell :=
  cells.foldl (fun m c => memWrite m (c.1 % Config.clipMemoryWords) c.2) m

/-- Every address of a list lies above a bound. -/
def addressesAbove : Nat → List ClipCell → Bool
  | _, [] => true
  | b, (a, w) :: rest =>
    decide (b < a) && decide (a < Config.clipMemoryWords) && (w != Config.unwrittenClipWord) && addressesAbove a rest

/-- The canonical form of clip memory: addresses strictly rising and within the memory, no word equal to what an
unlisted address reads as. -/
def Memory.wf : List ClipCell → Bool
  | [] => true
  | (a, w) :: rest =>
    decide (a < Config.clipMemoryWords) && (w != Config.unwrittenClipWord) && addressesAbove a rest

/-- Words paired with consecutive addresses. -/
def cellsFrom : Nat → List ClipWord → List ClipCell
  | _, [] => []
  | a, w :: rest => (a, w) :: cellsFrom (a + 1) rest

/-- A word as a player burst reads it: the clip write buffer's word in place of the word in memory (R94). -/
def Clips.readWord (c : Clips) (address : Nat) : ClipWord :=
  match c.writeBuffer.bind (fun b => ((cellsFrom b.address b.words).find? (fun x => x.1 == address)).map (·.2)) with
  | some w => w
  | none => memRead c.memory (address % Config.clipMemoryWords)

/-! ### The directory -/

/-- A clip is referenced while any record of the page queue names it (R91, R106). -/
def State.referenced (s : State) (clip : Fin 256) : Bool :=
  s.pages.queue.any (fun p =>
    p.chime == some clip || (match p.source with
      | .clips l => l.contains clip
      | _ => false))

/-- A clip that a page record may name: defined and READY (R107). -/
def State.clipReady (s : State) (clip : Fin 256) : Bool :=
  (s.clips.directory[clip]).any (fun e => e.state == .ready)

/-- The entry of a clip is CAPTURING. -/
def State.clipCapturing (s : State) (clip : Fin 256) : Bool :=
  (s.clips.directory[clip]).any (fun e => e.state == .capturing)

def State.setEntry (s : State) (clip : Fin 256) (e : Option ClipEntry) : State :=
  s.setClips { s.clips with directory := put s.clips.directory clip e }

/-- A write for a clip held in the clip write buffer is discarded (R92, R93, R96). DESIGN CHOICE (log entry 39): a write
whose burst has been granted leaves the buffer, and its burst still writes its words to memory; the rules say what
becomes of a granted burst for captures alone (R99). -/
def State.discardWrite (s : State) (clip : Fin 256) : State :=
  s.setClips { s.clips with writeBuffer := s.clips.writeBuffer.filter (fun b => b.clip != clip) }

/-- Two regions have a word in common. -/
def regionsOverlap (a la b lb : Nat) : Bool := decide (a < b + lb) && decide (b < a + la)

/-- A region runs past the end of clip memory or overlaps that of another defined entry (R92). -/
def State.regionClash (s : State) (clip : Fin 256) (start len : Nat) : Bool :=
  decide (Config.clipMemoryWords < start + len) ||
  (indices 256).any (fun j => j != clip &&
    (s.clips.directory[j]).any (fun e => regionsOverlap start len e.start e.region))

/-- The entry is written by DEFINE CLIP (R92). -/
def State.define (s : State) (clip : Fin 256) (start len : Nat) (honour : Bool) (trim : Nat) : State :=
  match s.clips.directory[clip] with
  | some e =>
    if e.start = start ∧ e.region = len then s.setEntry clip (some { e with honour := honour, trim := trim })
    else
      (s.setEntry clip (some
        { start := start, region := len, used := 0, state := .empty, honour := honour, trim := trim })).discardWrite clip
  | none =>
    (s.setEntry clip (some
      { start := start, region := len, used := 0, state := .empty, honour := honour, trim := trim })).discardWrite clip

def defineClip (ws : List Word16) (s : State) : Answer :=
  match ws with
  | [clip, startHi, startLo, lenHi, lenLo, honour, trim] =>
    let len := wide lenHi lenLo
    match wordIndex 256 clip, flagWord honour with
    | some c, some h =>
      if 63 < startHi.toNat ∨ len = 0 ∨ Config.clipMemoryWords < len then .refuse .outOfRange s
      else if s.clipCapturing c then .refuse .busy s
      else if s.referenced c then .refuse .inUse s
      else if s.regionClash c (wide startHi startLo) len then .refuse .overlap s
      else .ok (s.define c (wide startHi startLo) len h trim.toNat)
    | _, _ => .refuse .outOfRange s
  | _ => .refuse .badLength s

def deleteClip (ws : List Word16) (s : State) : Answer :=
  match ws with
  | [clip] =>
    match wordIndex 256 clip with
    | none => .refuse .outOfRange s
    | some c =>
      if (s.clips.directory[c]).isNone then .refuse .notFound s
      else if s.clipCapturing c then .refuse .busy s
      else if s.referenced c then .refuse .inUse s
      else .ok ((s.setEntry c none).discardWrite c)
  | _ => .refuse .badLength s

/-- WRITE CLIP's words go into the clip write buffer and the used length takes them in (R94). -/
def State.bufferWords (s : State) (clip : Fin 256) (e : ClipEntry) (offset : Nat) (data : List ClipWord) : State :=
  let s := s.setEntry clip (some { e with used := max e.used (offset + data.length), state := .ready })
  s.setClips { s.clips with
    writeBuffer := some { clip := clip, address := e.start + offset, words := data, granted := false } }

def writeClip (ws : List Word16) (s : State) : Answer :=
  match ws with
  | w0 :: w1 :: data =>
    if data.length = 0 ∨ 14 < data.length then .refuse .badLength s
    else
      let clip : Fin 256 := (w0.extractLsb' 8 8).toFin
      let high := field w0 0 8
      let offset := high * 65536 + w1.toNat
      if 63 < high then .refuse .outOfRange s
      else
        match s.clips.directory[clip] with
        | none => .refuse .notFound s
        | some e =>
          if e.state = .capturing then .refuse .busy s
          else if s.referenced clip then .refuse .inUse s
          else if e.used < offset ∨ e.region < offset + data.length then .refuse .outOfRange s
          else if s.clips.writeBuffer.isSome then .refuse .busy s
          else .ok (s.bufferWords clip e offset data)
  | _ => .refuse .badLength s

/-- The state code of READ CLIP (R95). -/
def ClipState.code : ClipState → Nat
  | .empty => 1
  | .capturing => 2
  | .ready => 3

/-- The reply words of READ CLIP (R95). -/
def State.clipWords (s : State) (clip : Fin 256) (e : ClipEntry) : List Word16 :=
  [ BitVec.ofNat 16
      (e.state.code + (if e.honour then 4 else 0) + (if s.referenced clip then 8 else 0)
        + (if s.clips.writeBuffer.any (fun b => b.clip == clip) then 16 else 0)),
    wideHigh e.start, wideLow e.start, wideHigh e.region, wideLow e.region, wideHigh e.used, wideLow e.used,
    BitVec.ofNat 16 e.trim ]

def readClip (ws : List Word16) (s : State) : Answer :=
  match ws with
  | [clip] =>
    match wordIndex 256 clip with
    | none => .refuse .outOfRange s
    | some c =>
      match s.clips.directory[c] with
      | none => .refuse .notFound s
      | some e => .report s (s.clipWords c e)
  | _ => .refuse .badLength s

/-! ### Capture -/

/-- CAPTURE CLIP's record and entry (R96). -/
def State.startCapture (s : State) (clip : Fin 256) (e : ClipEntry) (slot : Fin 64) (onSound : Bool) : State :=
  let s := (s.setEntry clip (some { e with state := .capturing, used := 0 })).discardWrite clip
  s.setClips { s.clips with
    capture := { Capture.idle with
      phase := if onSound then .waitingSound else .recording, clip := clip, slot := slot } }

def captureClip (ws : List Word16) (s : State) : Answer :=
  match ws with
  | [clip, slot, mode] =>
    match wordIndex 256 clip, wordIndex 64 slot, flagWord mode with
    | some c, some t, some m =>
      match s.clips.directory[c] with
      | none => .refuse .notFound s
      | some e =>
        if s.clips.capture.phase ≠ .idle then .refuse .busy s
        else if s.referenced c then .refuse .inUse s
        else { state := s.startCapture c e t m, status := .accepted, reply := [] }
    | _, _, _ => .refuse .outOfRange s
  | _ => .refuse .badLength s

/-- A sample as a stored clip word (R97). -/
def clipWordOf (x : Int) : ClipWord := BitVec.ofInt 16 (max (-32767) (min 32767 (roundDiv 256 x)))

/-- One word is stored in the capture buffer, or lost when the buffer holds 256 words (R97). -/
def Capture.store (c : Capture) (start : Nat) (x : Int) : Capture :=
  if 256 ≤ c.buffer.length then c
  else if x = Config.emptyMarker then
    { c with
      buffer := c.buffer ++ [(start + c.stored, 0)], stored := c.stored + 1
      emptyRun := if c.heard then c.emptyRun + 1 else 0 }
  else
    { c with
      buffer := c.buffer ++ [(start + c.stored, clipWordOf x)], stored := c.stored + 1, heard := true, emptyRun := 0 }

/-- One computation of the capture unit (R97). -/
def Capture.sample (c : Capture) (start : Nat) (x : Int) : Capture :=
  match c.phase with
  | .waitingSound => if x = Config.emptyMarker then c else { c with phase := .recording }.store start x
  | .recording => c.store start x
  | _ => c

/-- The start address of the region being recorded, and its length. -/
def State.captureStart (s : State) : Nat := ((s.clips.directory[s.clips.capture.clip]).map (·.start)).getD 0
def State.captureRegion (s : State) : Nat := ((s.clips.directory[s.clips.capture.clip]).map (·.region)).getD 0

/-- One computation of the capture unit, from the tap of its slot (R97). -/
def State.captureSample (s : State) : State :=
  s.setClips { s.clips with
    capture := s.clips.capture.sample s.captureStart (s.tap s.clips.capture.slot) }

/-- The recording ends FULL when the words stored equal the region length (R98). -/
def captureFull (s : State) : State :=
  let c := s.clips.capture
  if c.phase = .recording ∧ c.stored = s.captureRegion then
    s.setClips { s.clips with capture := { c with phase := .closing, used := c.stored, full := true } }
  else s

/-- The end marker replaces the word at an address in the capture buffer, or is placed after the buffered words
(R98). DESIGN CHOICE (log entry 49): the one-word write placed after the buffered words is one more buffered cell, the
257th when the buffer is full, and goes out in order with them, in the burst of the last of them where that has room. -/
def placeMarker (buffer : List ClipCell) (address : Nat) : List ClipCell :=
  if buffer.any (fun x => x.1 == address) then
    buffer.map (fun x => if x.1 = address then (address, Config.endMarker) else x)
  else buffer ++ [(address, Config.endMarker)]

/-- The recording ends END when the empty run has reached 480 and the region is not full (R98). -/
def captureEnd (s : State) : State :=
  let c := s.clips.capture
  if c.phase = .recording ∧ c.stored ≠ s.captureRegion ∧ 480 ≤ c.emptyRun then
    let used := c.stored - 480
    s.setClips { s.clips with
      capture := { c with
        phase := .closing, used := used, full := false, buffer := placeMarker c.buffer (s.captureStart + used) } }
  else s

/-- The burst in progress writes captured words. -/
def Clips.captureBurst (c : Clips) : Bool :=
  match c.burst with
  | some { kind := .captureWrite _, .. } => true
  | _ => false

/-- A closing capture completes when its last buffered word is written (R98). The record it leaves is that of an idle
capture unit: clip 0, slot 0 and counts 0 are a DESIGN CHOICE (log entry 40), since R98 gives the phase and the empty
buffer alone. -/
def captureDone (s : State) : State :=
  let c := s.clips.capture
  if c.phase = .closing ∧ c.buffer = [] ∧ s.clips.captureBurst = false then
    let s := s.setEntry c.clip ((s.clips.directory[c.clip]).map (fun e => { e with used := c.used, state := .ready }))
    let s := s.setClips { s.clips with capture := Capture.idle }
    s.post .captureDone (BitVec.ofNat 16 c.clip.val) (if c.full then 1 else 2)
  else s

/-- A capture ends without a clip: the entry becomes EMPTY, the buffer is emptied, the phase returns to IDLE (R99). The
clip 0, slot 0 and counts 0 of the record it leaves are a DESIGN CHOICE (log entry 40). -/
def State.dropCapture (s : State) : State :=
  let c := s.clips.capture
  let s := s.setEntry c.clip ((s.clips.directory[c.clip]).map (fun e => { e with used := 0, state := .empty }))
  s.setClips { s.clips with capture := Capture.idle }

/-- The ring receiver leaves LOCKED: a capture that is WAITING SOUND or RECORDING fails (R99). -/
def State.captureRingLost (s : State) : State :=
  match s.clips.capture.phase with
  | .waitingSound => s.dropCapture.post .captureFailed (BitVec.ofNat 16 s.clips.capture.clip.val) 2
  | .recording => s.dropCapture.post .captureFailed (BitVec.ofNat 16 s.clips.capture.clip.val) 2
  | _ => s

def cancelCapture (ws : List Word16) (s : State) : Answer :=
  match ws with
  | [] =>
    if s.clips.capture.phase = .idle then .refuse .notFound s
    else .ok (s.dropCapture.post .captureFailed (BitVec.ofNat 16 s.clips.capture.clip.val) 1)
  | _ => .refuse .badLength s

/-! ### Players -/

def State.setPlayer (s : State) (p : Fin 4) (x : Player) : State :=
  s.setClips { s.clips with players := put s.clips.players p x }

/-- A read burst of a player that has been restarted or released: its words are discarded on delivery (R100). -/
def Burst.dropPlayer (b : Burst) (p : Fin 4) : Burst :=
  match b.kind with
  | .playerRead q pos off len stale =>
    if q = p then { b with kind := .playerRead q pos off len true } else { b with kind := .playerRead q pos off len stale }
  | _ => b

def State.dropBurst (s : State) (p : Fin 4) : State :=
  s.setClips { s.clips with burst := s.clips.burst.map (fun b => b.dropPlayer p) }

/-- The page scheduler hands a player a sequence: the FIFO is emptied and the player enters PRIMING (R100). -/
def State.handSequence (s : State) (p : Fin 4) (sequence : List (Fin 256)) (hasChime : Bool) : State :=
  (s.dropBurst p).setPlayer p
    { state := .priming, sequence := sequence, hasChime := hasChime, fetch := some (0, 0), fifo := []
      underrun := false, chimeEnd := if hasChime then .ahead else .taken, seqEnd := .ahead, releasing := false }

/-- The page scheduler releases a player: its FIFO is emptied, its sequence is discarded, and it enters IDLE in the
next cycle period (R100). Its fetch position is fetched-all from then on (DESIGN CHOICE, log entry 48). -/
def State.releasePlayer (s : State) (p : Fin 4) : State :=
  (s.dropBurst p).setPlayer p
    { s.clips.players[p] with
      sequence := [], hasChime := false, fetch := none, fifo := [], chimeEnd := .taken, seqEnd := .taken
      releasing := true }

/-- At the start of a cycle period a released player enters IDLE, which ends the activation of its inserts (R15,
R16, R100). -/
def State.idlePlayer (s : State) (p : Fin 4) : State :=
  if (s.clips.players[p]).releasing then (s.setPlayer p Player.idle).endActivation (.player p) else s

/-- The player has a burst outstanding whose words it will take (R101). -/
def Clips.outstanding (c : Clips) (p : Fin 4) : Bool :=
  match c.burst with
  | some { kind := .playerRead q _ _ _ stale, .. } => q == p && !stale
  | _ => false

/-- The player asks the arbiter for a burst (R101). -/
def Clips.asking (c : Clips) (p : Fin 4) : Bool :=
  let x := c.players[p]
  !c.outstanding p && x.fetch.isSome && !x.releasing &&
    match x.state with
    | .idle => false
    | .priming => decide (x.fifo.length < 256)
    | .playing => decide (x.fifo.length ≤ 128)

/-- The directory entry of a sequence position. -/
def Clips.sequenceEntry (c : Clips) (x : Player) (position : Nat) : Option ClipEntry :=
  x.sequence[position]?.bind (fun clip => c.directory[clip])

/-- The read burst a player asks for: at most 64 words, the words of the clip not yet fetched and, in PRIMING, the
room left in the FIFO (R101). -/
def Clips.playerBurst (c : Clips) (p : Fin 4) : BurstKind :=
  let x := c.players[p]
  let (pos, off) := x.fetch.getD (0, 0)
  let left := ((c.sequenceEntry x pos).map (·.used)).getD 0 - off
  let len := min 64 (if x.state = .priming then min left (256 - x.fifo.length) else left)
  .playerRead p pos off len false

/-- The player the arbiter serves: of those asking, the one with the fewest words, and on equal counts the lower
number (R102). -/
def Clips.chosenPlayer (c : Clips) : Option (Fin 4) :=
  ((indices 4).filter c.asking).foldl
    (fun best p =>
      match best with
      | none => some p
      | some b => if (c.players[p]).fifo.length < (c.players[b]).fifo.length then some p else some b)
    none

/-- The capture unit waits for the memory (R102). -/
def Capture.asking (c : Capture) : Bool :=
  decide (64 ≤ c.buffer.length) || (c.phase == .closing && !c.buffer.isEmpty)

/-- The arbiter grants one waiting requester when the memory is free (R102). -/
def Clips.grant (c : Clips) : Clips :=
  match c.burst with
  | some _ => c
  | none =>
    match c.chosenPlayer with
    | some p => { c with burst := some { kind := c.playerBurst p, elapsed := 0 } }
    | none =>
      if c.capture.asking then
        { c with
          burst := some { kind := .captureWrite (c.capture.buffer.take 64), elapsed := 0 }
          capture := { c.capture with buffer := c.capture.buffer.drop 64 } }
      else
        match c.writeBuffer with
        | some b =>
          { c with
            burst := some { kind := .bufferWrite (cellsFrom b.address b.words), elapsed := 0 }
            writeBuffer := some { b with granted := true } }
        | none => c

/-- The start of a period with the memory free (R102). -/
def burstGrant (s : State) : State := s.setClips s.clips.grant

/-- The fetch position after the clip at a sequence position (R101). -/
def Player.nextClip (x : Player) (position : Nat) : Option (Nat × Nat) :=
  if position + 1 < x.sequence.length then some (position + 1, 0) else none

/-- The words of a burst are delivered: those before an honoured end marker join the FIFO, and the fetch position
advances (R101). -/
def Player.deliver (x : Player) (e : ClipEntry) (position offset : Nat) (words : List ClipWord) : Player :=
  let taken := if e.honour then words.takeWhile (fun w => w != Config.endMarker) else words
  let ended := decide (taken.length < words.length) || decide (e.used ≤ offset + words.length)
  { x with
    fifo := x.fifo ++ taken.map (fun w => (position, w))
    fetch := if ended then x.nextClip position else some (position, offset + words.length) }

/-- The burst completes: its words are delivered, or are in memory (R94, R101, R102). -/
def Clips.complete (c : Clips) (k : BurstKind) : Clips :=
  match k with
  | .playerRead p pos off len stale =>
    let x := c.players[p]
    match c.sequenceEntry x pos with
    | some e =>
      if stale then { c with burst := none }
      else
        { c with
          burst := none
          players := put c.players p (x.deliver e pos off ((List.range len).map (fun i => c.readWord (e.start + off + i)))) }
    | none => { c with burst := none }
  | .captureWrite cells => { c with burst := none, memory := memWriteAll c.memory cells }
  | .bufferWrite cells =>
    { c with
      burst := none
      memory := memWriteAll c.memory cells
      writeBuffer := c.writeBuffer.filter (fun b => !b.granted) }

/-- The end of a burst's second period (R102). -/
def burstDone (s : State) : State :=
  match s.clips.burst with
  | some b => if 2 ≤ b.elapsed then s.setClips (s.clips.complete b.kind) else s
  | none => s

/-- One cycle period of the burst in progress (R102). -/
def State.burstTick (s : State) : State :=
  s.setClips { s.clips with burst := s.clips.burst.map (fun b => { b with elapsed := b.elapsed + 1 }) }

/-- A priming player's FIFO has filled, or its sequence is all fetched (R101). -/
def Clips.primed (c : Clips) (p : Fin 4) : Bool :=
  let x := c.players[p]
  x.state == .priming && !x.releasing && (decide (256 ≤ x.fifo.length) || (x.fetch.isNone && !c.outstanding p))

/-- A primed player enters PLAYING (R101). -/
def playerPrimed (p : Fin 4) (s : State) : State :=
  if s.clips.primed p then s.setPlayer p { s.clips.players[p] with state := .playing } else s

/-! ### Player output -/

/-- The conversion of a clip word with the trim of its clip (R103). -/
def playerSample (w : ClipWord) (trim : Nat) : Int := saturate (roundDiv 16384 (w.toInt * 256 * (trim : Int)))

/-- A player's output sample in this computation; an idle player is no source (R103). -/
def Clips.playerOut (c : Clips) (p : Fin 4) : Int :=
  let x := c.players[p]
  match x.state with
  | .idle => Config.emptyMarker
  | .priming => 0
  | .playing =>
    match x.fifo with
    | (pos, w) :: _ => playerSample w (((c.sequenceEntry x pos).map (·.trim)).getD 0)
    | [] => 0

/-- No word of the chime is still to be fetched or played (R104). -/
def Player.chimeOver (x : Player) : Bool :=
  (match x.fetch with
    | none => true
    | some (pos, _) => decide (1 ≤ pos)) && x.fifo.all (fun w => w.1 != 0)

/-- A boundary that has come is reported (R104). -/
def Boundary.reach (b : Boundary) (passed : Bool) : Boundary := if b == .ahead && passed then .due else b

/-- A playing player after its computation: the oldest word removed, the boundaries of its sequence reported (R103,
R104). -/
def Player.play (x : Player) : Player :=
  let x := { x with fifo := x.fifo.tail }
  { x with
    chimeEnd := x.chimeEnd.reach x.chimeOver
    seqEnd := x.seqEnd.reach (x.fetch.isNone && x.fifo.isEmpty) }

/-- The player underruns: a sample is due, the FIFO is empty, and words are still to come (R104). -/
def Clips.underruns (c : Clips) (p : Fin 4) : Bool :=
  let x := c.players[p]
  x.state == .playing && x.fifo.isEmpty && (x.fetch.isSome || c.outstanding p)

/-- One computation of a player (R103, R104). The first underrun of a sequence is posted. -/
def State.playerStep (s : State) (p : Fin 4) : State :=
  let x := s.clips.players[p]
  let s' :=
    if s.clips.underruns p && !x.underrun then
      (s.setPlayer p { x with underrun := true }).post .underrun ((s.playerPage p).map (·.id) |>.getD 0)
        (BitVec.ofNat 4 p.val)
    else s
  if x.state = .playing then s'.setPlayer p (s'.clips.players[p]).play else s'

/-! ### Meanings -/

/-- DEFINE_CLIP (R92). -/
def execDefineClip (address : NodeAddr) (low : BitVec 8) (s : State) : Host.Outcome State Fault Refusal :=
  .next (request 0x30 defineClip address low s)

/-- DELETE_CLIP (R93). -/
def execDeleteClip (address : NodeAddr) (low : BitVec 8) (s : State) : Host.Outcome State Fault Refusal :=
  .next (request 0x31 deleteClip address low s)

/-- WRITE_CLIP (R94). -/
def execWriteClip (address : NodeAddr) (low : BitVec 8) (s : State) : Host.Outcome State Fault Refusal :=
  .next (request 0x32 writeClip address low s)

/-- CAPTURE_CLIP (R96). -/
def execCaptureClip (address : NodeAddr) (low : BitVec 8) (s : State) : Host.Outcome State Fault Refusal :=
  .next (request 0x33 captureClip address low s)

/-- CANCEL_CAPTURE (R99). -/
def execCancelCapture (address : NodeAddr) (low : BitVec 8) (s : State) : Host.Outcome State Fault Refusal :=
  .next (request 0x34 cancelCapture address low s)

/-- READ_CLIP (R95). -/
def execReadClip (address : NodeAddr) (low : BitVec 8) (s : State) : Host.Outcome State Fault Refusal :=
  .next (request 0x35 readClip address low s)

/-- CAPTURE_FULL (R98). -/
def execCaptureFull (s : State) : Host.Outcome State Fault Refusal := .next (captureFull s)

/-- CAPTURE_END (R98). -/
def execCaptureEnd (s : State) : Host.Outcome State Fault Refusal := .next (captureEnd s)

/-- CAPTURE_DONE (R98). -/
def execCaptureDone (s : State) : Host.Outcome State Fault Refusal := .next (captureDone s)

/-- BURST_GRANT (R102). -/
def execBurstGrant (s : State) : Host.Outcome State Fault Refusal := .next (burstGrant s)

/-- BURST_DONE (R102). -/
def execBurstDone (s : State) : Host.Outcome State Fault Refusal := .next (burstDone s)

/-- PLAYER_PRIMED (R101). -/
def execPlayerPrimed (p : Fin 4) (s : State) : Host.Outcome State Fault Refusal := .next (playerPrimed p s)

end Sys2Proof.Machine
end

