-- ==== Sys2Proof/Machine/Pages.lean ====
section
/-! DEFINITION. The page scheduler (chapter 7): queue order, the grant pass, losing zones, repeats, ends and timers,
and its requests. -/

namespace Sys2Proof.Machine

/-! ### The queue -/

/-- The record of a page id. -/
def State.page (s : State) (id : PageId) : Option Page := s.pages.queue.find? (fun p => p.id == id)

/-- A page record is changed in place. -/
def State.updatePage (s : State) (id : PageId) (f : Page → Page) : State :=
  s.setPages { s.pages with queue := s.pages.queue.map (fun p => if p.id = id then f p else p) }

/-- The ids of the queue, in queue order. -/
def State.pageIds (s : State) : List PageId := s.pages.queue.map (·.id)

/-- A record joins the queue behind every record of equal or higher priority (R109). -/
def insertPage (p : Page) : List Page → List Page
  | [] => [p]
  | q :: rest => if p.priority ≤ q.priority then q :: insertPage p rest else p :: q :: rest

/-- A clip page (7.1). -/
def Page.clip (p : Page) : Bool :=
  match p.source with
  | .clips _ => true
  | _ => false

/-- Being granted, the page needs a player: a clip page, or a live page with a chime (R113). -/
def Page.needsPlayer (p : Page) : Bool := p.clip || p.chime.isSome

/-- The players that belong to no page record, lowest first (R113). -/
def State.freePlayer (s : State) : Option (Fin 4) :=
  (indices 4).find? (fun x => !s.pages.queue.any (fun p => p.player == some x))

/-! ### Grantable zones -/

/-- A zone is SHOW LOCKED in the active bank with a threshold above a priority (R111). -/
def State.lockedAgainst (s : State) (z : Fin 24) (priority : Nat) : Bool :=
  match (s.zoneFields z).mode with
  | .showLocked h => decide (priority < h)
  | _ => false

/-- A zone is grantable to a page (R111). -/
def State.grantable (s : State) (p : Page) (z : Fin 24) : Bool :=
  !s.covered z && !s.lockedAgainst z p.priority &&
    match s.holder z with
    | none => true
    | some q => decide (q.priority < p.priority)

/-- The zones of a page's set that are grantable to it. -/
def State.grantableZones (s : State) (p : Page) : ZoneSet :=
  zonesWhere (fun z => hasZone p.zones z && s.grantable p z)

/-! ### Losing zones -/

/-- A page gives its player back to the clip engine. -/
def State.freePage (s : State) (id : PageId) : State :=
  match s.page id with
  | some p =>
    match p.player with
    | some x => (s.releasePlayer x).updatePage id (fun p => { p with player := none })
    | none => s
  | none => s

/-- A page is suspended (R117); a record posts at most one PAGE SUSPENDED in a period (R112). -/
def State.suspendPage (s : State) (id : PageId) : State :=
  let posted := (s.page id).any (·.suspPosted)
  let s := (s.freePage id).updatePage id (fun p =>
    { p with state := .suspended, granted := 0, joining := 0, restartIn := none, suspPosted := true })
  if posted then s else s.post .pageSuspended id 0

/-- A loss of these zones suspends the page: it loses one, and is WHOLE or has no other (R116, R118). -/
def Page.suspends (p : Page) (lost : ZoneSet) : Bool :=
  p.granted &&& lost != 0 && (p.whole || p.granted &&& ~~~lost == 0)

/-- How many pages a loss of zones, given for each page, suspends. -/
def State.suspensions (s : State) (lost : Page → ZoneSet) : Nat := s.pages.queue.countP (fun p => p.suspends (lost p))

/-- A page loses zones; it goes on in the others, or is suspended when it is WHOLE or has no other (R116, R118). The
flag tells whether a page has been suspended. -/
def losePage (lost : ZoneSet) (id : PageId) (r : State × Bool) : State × Bool :=
  match r.1.page id with
  | some p =>
    if p.suspends lost then (r.1.suspendPage id, true)
    else if p.granted &&& lost = 0 then r
    else (r.1.updatePage id (fun p => { p with granted := p.granted &&& ~~~lost }), r.2)
  | none => r

/-- A page takes zones of its set: each is lost by the page that holds it and becomes the taking page's (R116).
DESIGN CHOICE (log entry 41): when one taking suspends several lower pages, they are suspended and post PAGE SUSPENDED
in queue order; R113 and R116 give no order among them. -/
def State.takeZones (s : State) (id : PageId) (zones : ZoneSet) : State × Bool :=
  let r := (s.pageIds.filter (· != id)).foldl (fun r q => losePage zones q r) (s, false)
  (r.1.updatePage id (fun p => { p with granted := p.granted ||| zones }), r.2)

/-! ### Repeats -/

/-- The sequence a page hands its player at the start of its current repeat, and whether it begins with the chime
(R119). -/
def Page.sequence (p : Page) : List (Fin 256) × Bool :=
  match p.source with
  | .clips l =>
    match p.chime with
    | some c => if p.current = 1 then (c :: l, true) else (l, false)
    | none => (l, false)
  | _ => (p.chime.toList, p.chime.isSome)

/-- A page's current repeat starts (R119). DESIGN CHOICE (log entry 56): a live page that starts with its chime has a
source-loss run of 0 in CHIME already; R120 and R124 set it at the entry to AUDIO. -/
def State.startRepeat (s : State) (id : PageId) : State :=
  match s.page id with
  | some p =>
    let s := s.updatePage id (fun p =>
      { p with
        restartIn := none
        phase := if p.sequence.2 then .chime else .audio
        sourceLoss := if p.clip then p.sourceLoss else 0 })
    match p.player with
    | some x => if p.needsPlayer then s.handSequence x p.sequence.1 p.sequence.2 else s
    | none => s
  | none => s

/-! ### The grant pass -/

/-- A WAITING or SUSPENDED record is granted zones: it takes them and a player, becomes PLAYING, starts its repeat,
and posts PAGE STARTED at its first grant (R113, R114). -/
def State.grantPage (s : State) (p : Page) (zones : ZoneSet) : State × Bool :=
  let r := s.takeZones p.id zones
  let s := if p.needsPlayer then r.1.updatePage p.id (fun q => { q with player := r.1.freePlayer }) else r.1
  let s := s.updatePage p.id (fun q => { q with state := .playing, started := true })
  let s := s.startRepeat p.id
  (if p.started then s else s.post .pageStarted p.id 0, r.2)

/-- A walk examines one record as it stands (R112 to R115). -/
def examinePage (id : PageId) (r : State × Bool) : State × Bool :=
  match r.1.page id with
  | none => r
  | some p =>
    let s := r.1
    let zones := s.grantableZones p
    match p.state with
    | .playing =>
      if p.whole then r
      else if p.clip then (s.updatePage id (fun q => { q with joining := zones }), r.2)
      else
        let t := s.takeZones id zones
        (t.1.updatePage id (fun q => { q with joining := 0 }), r.2 || t.2)
    | _ =>
      if p.needsPlayer && s.freePlayer.isNone then r
      else if (if p.whole then zones = p.zones else zones ≠ 0) then
        let t := s.grantPage p zones
        (t.1, r.2 || t.2)
      else r

/-- One walk over the queue, in queue order; the flag tells whether it suspended a page (R112). -/
def walk (s : State) : State × Bool := s.pageIds.foldl (fun r id => examinePage id r) (s, false)

/-- Walks until one suspends no page, at most `n` (R112). -/
def walks : Nat → State → State
  | 0, s => s
  | n + 1, s =>
    let r := walk s
    if r.2 then walks n r.1 else r.1

/-- More walks than a pass can take: every walk that suspends a page has a page take a zone from lower ones, which
raises the zone counts of the 32 records, read in queue order as a number of base 25. -/
def walkBound : Nat := 25 ^ 32

/-- One grant pass (R112). -/
def State.grantPass (s : State) : State := walks walkBound s

/-- `n` causes of a grant pass in this period: each has a pass of its own (R112). The passes run when the period closes,
since all the revocations of a period come before any of its passes (log entry 15). -/
def State.duePasses (s : State) (n : Nat) : State := s.setPages { s.pages with passes := s.pages.passes + n }

/-- One cause of a grant pass in this period (R112; log entry 15). -/
def State.duePass (s : State) : State := s.duePasses 1

/-- The zones held by a page that are covered, or locked against it (R118). -/
def State.revokedZones (s : State) (p : Page) : ZoneSet :=
  zonesWhere (fun z => hasZone p.granted z && (s.covered z || s.lockedAgainst z p.priority))

/-- Revocation of every held zone that its holder may no longer hold (R118). DESIGN CHOICE (log entry 41): the holders
that one revocation suspends are suspended and post PAGE SUSPENDED in queue order; R118 gives no order among them. -/
def State.revoke (s : State) : State :=
  (s.pageIds.foldl
    (fun r id =>
      match r.1.page id with
      | some p => losePage (r.1.revokedZones p) id r
      | none => r)
    (s, false)).1

/-- A change of coverage, mode or threshold is handed to the page scheduler: it revokes at once, and a grant pass of the
period is due for the change, and one for each record that the revocation suspends (R112, R118). -/
def State.handScheduler (s : State) : State := s.revoke.duePasses (1 + s.suspensions s.revokedZones)

/-! ### Ends -/

/-- A record leaves the queue, its player is given back and PAGE ENDED is posted (R122). -/
def State.removePage (s : State) (id : PageId) (cause : BitVec 4) : State :=
  let s := s.freePage id
  (s.setPages { s.pages with queue := s.pages.queue.filter (fun p => p.id != id) }).post .pageEnded id cause

/-- A page ends with a cause, and a grant pass of the period is due (R122). -/
def State.endPage (s : State) (id : PageId) (cause : BitVec 4) : State := (s.removePage id cause).duePass

/-- The causes of PAGE ENDED (2.8.4). -/
def pageCompleted : BitVec 4 := 1
def pageCancelled : BitVec 4 := 2
def pageExpiredCause : BitVec 4 := 3
def pageTimedOutCause : BitVec 4 := 4
def pageSourceLostCause : BitVec 4 := 5

/-- A WAITING or SUSPENDED record whose wait timer has reached its wait life ends EXPIRED (R123). -/
def pageExpired (id : PageId) (s : State) : State :=
  match s.page id with
  | some p =>
    if p.state ≠ .playing ∧ 0 < p.waitLife ∧ p.waitLife * Config.second ≤ p.waitTimer then
      s.endPage id pageExpiredCause
    else s
  | none => s

/-- A live page whose play timer has reached its play limit ends TIMED OUT (R124). DESIGN CHOICE (log entry 54): a page
suspended in the period its timer reaches the limit, before this is taken, stays SUSPENDED, and ends TIMED OUT at the
earliest in the period after its next grant, in CHIME too; R124 ends it in the period of the limit, and R122 asks
PLAYING. -/
def pageTimedOut (id : PageId) (s : State) : State :=
  match s.page id with
  | some p =>
    if p.state = .playing ∧ p.clip = false ∧ p.playLimit * Config.second ≤ p.playTimer then
      s.endPage id pageTimedOutCause
    else s
  | none => s

/-- A LIVE SLOT page whose source-loss run has reached 96,000 ends SOURCE LOST (R124). DESIGN CHOICE (log entry 54): a
page suspended in that period, before this is taken, stays SUSPENDED, and its next grant sets the run to 0. -/
def pageSourceLost (id : PageId) (s : State) : State :=
  match s.page id with
  | some p =>
    if p.state = .playing ∧ 96000 ≤ p.sourceLoss then s.endPage id pageSourceLostCause else s
  | none => s

/-- One cycle period of a record's timers (R121, R123, R124). -/
def Page.tick (tap : Fin 64 → Int) (p : Page) : Page :=
  let live := p.state == .playing && p.phase == .audio && !p.clip
  { p with
    waitTimer := if p.waitLife = 0 then p.waitTimer + 1 else min (p.waitLife * Config.second) (p.waitTimer + 1)
    playTimer := if live then min (p.playLimit * Config.second) (p.playTimer + 1) else p.playTimer
    sourceLoss :=
      if live then
        match p.source with
        | .liveSlot t => if tap t = Config.emptyMarker then min 96000 (p.sourceLoss + 1) else 0
        | _ => p.sourceLoss
      else p.sourceLoss
    restartIn := p.restartIn.map (· - 1)
    suspPosted := false }

/-- One cycle period of the page timers. -/
def State.pageTick (s : State) : State :=
  s.setPages { s.pages with queue := s.pages.queue.map (Page.tick s.tap) }

/-! ### Boundaries of a sequence -/

/-- The chime of a clip page has ended: the phase is AUDIO from the next computation (R104, R120). -/
def chimeEnd (p : Fin 4) (s : State) : State :=
  if (s.clips.players[p]).chimeEnd = .due then
    let page := s.playerPage p
    let s := s.setPlayer p { s.clips.players[p] with chimeEnd := .taken }
    match page with
    | some q =>
      if q.clip ∧ q.phase = .chime then s.updatePage q.id (fun q => { q with phase := .audio }) else s
    | none => s
  else s

/-- A clip page's repeat ends: it completes, enters its gap, or starts its next repeat in the next period (R121). -/
def State.endRepeat (s : State) (p : Page) : State :=
  if p.repeats ≤ p.current then s.endPage p.id pageCompleted
  else
    s.updatePage p.id (fun p =>
      { p with
        current := p.current + 1
        phase := if 0 < p.gap then .gap else p.phase
        restartIn := some (if 0 < p.gap then p.gap * Config.tick else 1) })

/-- A live page's chime sequence has ended: it gives back its player, enters AUDIO and a grant pass is due (R120). -/
def State.endLiveChime (s : State) (p : Page) : State :=
  ((s.freePage p.id).updatePage p.id (fun p => { p with phase := .audio, sourceLoss := 0 })).duePass

/-- The sequence of a page has ended (R104). DESIGN CHOICE (log entry 54): a page suspended in that period, before this is
taken, has given its player back, so the end is dropped and its current repeat starts anew at its next grant; the end of
a chime is dropped likewise. -/
def sequenceEnd (p : Fin 4) (s : State) : State :=
  if (s.clips.players[p]).seqEnd = .due then
    let page := s.playerPage p
    let s := s.setPlayer p { s.clips.players[p] with seqEnd := .taken }
    match page with
    | some q => if q.clip then s.endRepeat q else s.endLiveChime q
    | none => s
  else s

/-- The gap of a clip page has run out: its next repeat starts and it takes its joining zones that are grantable
now; a grant pass is due for each page that this suspends (R112, R115, R119, R121). -/
def gapEnd (id : PageId) (s : State) : State :=
  match s.page id with
  | some p =>
    if p.state = .playing ∧ p.restartIn = some 0 then
      let s := s.startRepeat id
      let zones := p.joining &&& s.grantableZones p
      let t := (s.takeZones id zones).1.updatePage id (fun q => { q with joining := 0 })
      t.duePasses (s.suspensions (fun q => if q.id = id then 0 else zones))
    else s
  | none => s

/-! ### The passes of a period (R112) -/

/-- Grant passes, one after another. -/
def passesRun : Nat → State → State
  | 0, s => s
  | n + 1, s => passesRun n s.grantPass

/-- The due passes of a period run. -/
def State.runPasses (s : State) : State := passesRun s.pages.passes (s.setPages { s.pages with passes := 0 })

/-- Every WAITING or SUSPENDED record past its wait life ends EXPIRED (R123). -/
def State.expirePages (s : State) : State := s.pageIds.foldl (fun s id => pageExpired id s) s

/-- The due passes run; a record past its wait life that they leave suspended ends EXPIRED in this same period, which
makes a further pass due (R112, R122, R123). Each round but the first follows the end of a record, so one more round
than there are records is enough. -/
def settleRounds : Nat → State → State
  | 0, s => s
  | n + 1, s => if s.pages.passes = 0 then s else settleRounds n s.runPasses.expirePages

def State.settle (s : State) : State := settleRounds (s.pages.queue.length + 1) s

/-! ### Queuing -/

/-- A new record (R106). Its phase, which has a meaning only while PLAYING (7.1), is AUDIO (DESIGN CHOICE, log entry
56). -/
def newPage (id : PageId) (priority : Nat) (origin : PageOrigin) (source : PageSource) (chime : Option (Fin 256))
    (zones : ZoneSet) (whole : Bool) (repeats gap waitLife playLimit gain arrival : Nat) : Page :=
  { id := id, priority := priority, origin := origin, source := source, chime := chime, zones := zones
    whole := whole, repeats := repeats, gap := gap, waitLife := waitLife, playLimit := playLimit, gain := gain
    arrival := arrival, state := .waiting, granted := 0, joining := 0, player := none, current := 1, phase := .audio
    waitTimer := 0, playTimer := 0, sourceLoss := 0, restartIn := none, started := false, suspPosted := false }

/-- A record joins the queue and a grant pass of the period is due (R106, R108, R112). -/
def State.enqueue (s : State) (p : Page) : State :=
  (s.setPages { s.pages with
    queue := insertPage { p with arrival := s.pages.nextArrival } s.pages.queue
    nextArrival := s.pages.nextArrival + 1 }).duePass

/-- The chime word of QUEUE PAGE (R107). -/
def chimeWord (w : Word16) : Option (Option (Fin 256)) := optionalIndex 256 65535 w

/-- The page ids that belong to station pages (R107, R125). -/
def stationPageId (port : Fin 32) : PageId := BitVec.ofNat 16 (65280 + port.val)

/-- A page id QUEUE PAGE may give (R107). -/
def requestPageId (id : PageId) : Bool := id != 0 && !(decide (65280 ≤ id.toNat) && decide (id.toNat ≤ 65311))

/-- Every clip a page would name may be named (R107). -/
def State.clipsReady (s : State) (chime : Option (Fin 256)) (source : PageSource) : Bool :=
  chime.all s.clipReady && (match source with
    | .clips l => l.all s.clipReady
    | _ => true)

/-- The play limit of a record, in seconds (R108). -/
def clampedPlayLimit (source : PageSource) (limit : Nat) : Nat :=
  match source with
  | .clips _ => 600
  | _ => clampTo 1 600 limit

def queuePage (ws : List Word16) (s : State) : Answer :=
  match ws with
  | [id, w1, src, chime, l0, l1, l2, l3, zlo, zhi, gap, wait, limit, gain] =>
    let priority := field w1 0 4
    match pageSource src [l0, l1, l2, l3], chimeWord chime, zoneSetOf zlo zhi with
    | some source, some c, some zones =>
      if requestPageId id = false ∨ priority = 0 ∨ zones = 0 then .refuse .outOfRange s
      else if (s.page id).isSome then .refuse .duplicate s
      else if 32 ≤ s.pages.queue.length then .refuse .full s
      else if s.clipsReady c source = false then .refuse .notFound s
      else
        .ok (s.enqueue (newPage id priority .request source c zones (w1.getLsbD 4 = false)
          (clampTo 1 8 (field w1 8 4)) (min 600 gap.toNat) (min 600 wait.toNat)
          (clampedPlayLimit source limit.toNat) gain.toNat 0))
    | _, _, _ => .refuse .outOfRange s
  | _ => .refuse .badLength s

/-! ### Station pages (R125) -/

/-- The record of a station page (R125). -/
def stationPage (port : Fin 32) (e : Station) : Page :=
  newPage (stationPageId port) e.pagePrio (.station port) (.liveInput e.mic) none e.pageGroup false 1 0 0 e.pageLimit
    16384 0

/-- The press is refused: the station's earlier page has not ended, the queue is full, or the group is empty. -/
def State.pressRefused (s : State) (port : Fin 32) (e : Station) : Bool :=
  (s.page (stationPageId port)).isSome || decide (32 ≤ s.pages.queue.length) || e.pageGroup == 0

/-- PAGE RELEASE of a station ends its page COMPLETED when PLAYING and CANCELLED otherwise (R125). -/
def State.releaseStationPage (s : State) (port : Fin 32) : State :=
  match s.page (stationPageId port) with
  | some p => s.endPage p.id (if p.state = .playing then pageCompleted else pageCancelled)
  | none => s

/-- A station that becomes ABSENT ends its page SOURCE LOST (R125). -/
def State.loseStationPage (s : State) (port : Fin 32) : State :=
  match s.page (stationPageId port) with
  | some p => s.endPage p.id pageSourceLostCause
  | none => s

/-! ### Requests -/

def cancelPage (ws : List Word16) (s : State) : Answer :=
  match ws with
  | [id] =>
    if id = 0 then .refuse .outOfRange s
    else if (s.page id).isNone then .refuse .notFound s
    else .ok (s.endPage id pageCancelled)
  | _ => .refuse .badLength s

def PageState.code : PageState → Nat
  | .waiting => 1
  | .playing => 2
  | .suspended => 3

def PagePhase.code : PagePhase → Nat
  | .chime => 1
  | .audio => 2
  | .gap => 3

/-- The reply words of READ PAGE for a record at a position in queue order (R127). -/
def Page.words (p : Page) (position : Nat) : List Word16 :=
  [ BitVec.ofNat 16
      (p.state.code + (if p.state = .playing then 4 * p.phase.code else 0) + (if p.whole then 0 else 16)
        + (if p.origin = .request then 0 else 32) + 256 * (p.player.map Fin.val).getD 7 + 4096 * p.priority),
    BitVec.ofNat 16 (p.current + 16 * p.repeats + 256 * position),
    zoneSetLow p.granted, zoneSetHigh p.granted, zoneSetLow p.joining, zoneSetHigh p.joining,
    BitVec.ofNat 16 (min (if p.waitLife = 0 then 65535 else 600) (p.waitTimer / Config.second)),
    BitVec.ofNat 16 (if p.clip then 0 else p.playTimer / Config.second) ]

def readPage (ws : List Word16) (s : State) : Answer :=
  match ws with
  | [id] =>
    if id = 0 then .refuse .outOfRange s
    else
      match s.page id with
      | none => .refuse .notFound s
      | some p => .report s (p.words (s.pages.queue.findIdx (fun q => q.id == id)))
  | _ => .refuse .badLength s

/-! ### What the mix engine is presented with (R110) -/

/-- The source sample of a holder page, from the players' outputs of the computation (R110). -/
def State.pageSample (s : State) (players : Vector Int 4) (p : Page) : Int :=
  let played : Int := match p.player with
    | some x => players[x]
    | none => 0
  match p.phase with
  | .chime => played
  | _ =>
    match p.source with
    | .clips _ => played
    | .liveSlot t => s.tap t
    | .liveInput i => s.inputSample i

/-! ### Meanings -/

/-- CHIME_END (R104). -/
def execChimeEnd (p : Fin 4) (s : State) : Host.Outcome State Fault Refusal := .next (chimeEnd p s)

/-- SEQUENCE_END (R104). -/
def execSequenceEnd (p : Fin 4) (s : State) : Host.Outcome State Fault Refusal := .next (sequenceEnd p s)

/-- GAP_END (R121). -/
def execGapEnd (id : PageId) (s : State) : Host.Outcome State Fault Refusal := .next (gapEnd id s)

/-- QUEUE_PAGE (R107). -/
def execQueuePage (address : NodeAddr) (low : BitVec 8) (s : State) : Host.Outcome State Fault Refusal :=
  .next (request 0x38 queuePage address low s)

/-- PAGE_EXPIRED (R123). -/
def execPageExpired (id : PageId) (s : State) : Host.Outcome State Fault Refusal := .next (pageExpired id s)

/-- PAGE_TIMED_OUT (R124). -/
def execPageTimedOut (id : PageId) (s : State) : Host.Outcome State Fault Refusal := .next (pageTimedOut id s)

/-- PAGE_SOURCE_LOST (R124). -/
def execPageSourceLost (id : PageId) (s : State) : Host.Outcome State Fault Refusal := .next (pageSourceLost id s)

/-- CANCEL_PAGE (R126). -/
def execCancelPage (address : NodeAddr) (low : BitVec 8) (s : State) : Host.Outcome State Fault Refusal :=
  .next (request 0x39 cancelPage address low s)

/-- READ_PAGE (R127). -/
def execReadPage (address : NodeAddr) (low : BitVec 8) (s : State) : Host.Outcome State Fault Refusal :=
  .next (request 0x3A readPage address low s)

end Sys2Proof.Machine
end

