-- ==== Sys2Proof/Machine/Mix.lean ====
section
/-! DEFINITION. Zone mixing (chapter 4): the route banks and zone fields with their requests, the zone computation,
and the duck envelope. -/

namespace Sys2Proof.Machine

/-! ### Route banks -/

/-- The write mode a request uses: that of a SET NODE executed before it, in this period too (R38). -/
def State.writeMode (s : State) : WriteMode := (s.ctl.incoming.getD s.ctl.settings).writeMode

/-- The bank a write reaches (R56). -/
def State.writtenBank (s : State) : BankId :=
  match s.writeMode with
  | .direct => s.scene.active
  | .staged => s.scene.active.other

/-- A STAGED write while a TAKE is waiting or crossfading is refused with BUSY (R54 to R57, R74). -/
def State.writeBusy (s : State) : Bool := s.writeMode == .staged && s.scene.state != .idle

/-- The entry has a key (R52). -/
def Route.hasKey (r : Route) (z : Fin 24) (src : RouteSource) : Bool := r.zone == z && r.source == src

/-- The bank holds an entry of a key. -/
def Bank.holds (b : Bank) (z : Fin 24) (src : RouteSource) : Bool := b.routes.any (fun r => r.hasKey z src)

/-- The bank with one entry written: its gain and role replaced, or created when the key is absent (R54). -/
def Bank.load (b : Bank) (x : Route) : Bank :=
  if b.holds x.zone x.source then
    { b with routes := b.routes.map (fun r => if r.hasKey x.zone x.source then x else r) }
  else { b with routes := b.routes ++ [x] }

/-- The bank with one entry removed (R55). -/
def Bank.clear (b : Bank) (z : Fin 24) (src : RouteSource) : Bank :=
  { b with routes := b.routes.filter (fun r => !r.hasKey z src) }

def State.setBank (s : State) (id : BankId) (b : Bank) : State := s.setMix (s.mix.setBank id b)

def loadRoute (ws : List Word16) (s : State) : Answer :=
  match ws with
  | [zone, source, gain, role] =>
    match wordIndex 24 zone, routeSource source, routeRole role with
    | some z, some src, some r =>
      let b := s.mix.bank s.writtenBank
      if s.writeBusy then .refuse .busy s
      else if b.holds z src = false ∧ 256 ≤ b.routes.length then .refuse .full s
      else .ok (s.setBank s.writtenBank (b.load { zone := z, source := src, gain := gain.toNat, role := r }))
    | _, _, _ => .refuse .outOfRange s
  | _ => .refuse .badLength s

def clearRoute (ws : List Word16) (s : State) : Answer :=
  match ws with
  | [zone, source] =>
    match wordIndex 24 zone, routeSource source with
    | some z, some src =>
      let b := s.mix.bank s.writtenBank
      if s.writeBusy then .refuse .busy s
      else if b.holds z src = false then .refuse .notFound s
      else .ok (s.setBank s.writtenBank (b.clear z src))
    | _, _ => .refuse .outOfRange s
  | _ => .refuse .badLength s

/-! ### Zone fields -/

/-- The fields of SET ZONE after the clamps (R57). -/
def zoneBankOf (mode : ZoneMode) (master depth attack release : Nat) : ZoneBank :=
  { mode := mode, master := min 16384 master, depth := min 16384 depth, attack := clampTo 1 16384 attack
    release := clampTo 1 16384 release }

/-- SET ZONE writes the bank; a DIRECT change of mode or threshold is handed to the page scheduler (R56 to R58). -/
def State.writeZone (s : State) (z : Fin 24) (f : ZoneBank) : State :=
  let b := s.mix.bank s.writtenBank
  let old := b.fields[z]
  let s' := s.setBank s.writtenBank { b with fields := put b.fields z f }
  if s.writeMode = .direct ∧ old.mode ≠ f.mode then s'.handScheduler else s'

def setZone (ws : List Word16) (s : State) : Answer :=
  match ws with
  | [zone, mode, threshold, master, depth, attack, release] =>
    match wordIndex 24 zone, zoneMode mode threshold with
    | some z, some m =>
      if s.writeBusy then .refuse .busy s
      else .ok (s.writeZone z (zoneBankOf m master.toNat depth.toNat attack.toNat release.toNat))
    | _, _ => .refuse .outOfRange s
  | _ => .refuse .badLength s

/-- The fields of SET ZONE LOCAL after the clamps, in order (R59). -/
def zoneLocalOf (level step limit : Nat) : ZoneLocal :=
  { level := min 16384 level, trimStep := min (min 8 limit) step, trimLimit := min 8 limit }

def setZoneLocal (ws : List Word16) (s : State) : Answer :=
  match ws with
  | [zone, level, step, limit] =>
    match wordIndex 24 zone with
    | some z =>
      .ok (s.setMix { s.mix with
        zoneLocal := put s.mix.zoneLocal z (zoneLocalOf level.toNat step.toNat limit.toNat) })
    | none => .refuse .outOfRange s
  | _ => .refuse .badLength s

/-- A QUIETER or a LOUDER step request moves the trim step by one within 0..limit (R61). -/
def ZoneLocal.trimBy (l : ZoneLocal) (quieter : Bool) : ZoneLocal :=
  if quieter then
    if l.trimStep < l.trimLimit then { l with trimStep := l.trimStep + 1 } else l
  else { l with trimStep := l.trimStep - 1 }

def State.trimRequest (s : State) (z : Fin 24) (quieter : Bool) : State :=
  s.setMix { s.mix with zoneLocal := put s.mix.zoneLocal z ((s.mix.zoneLocal[z]).trimBy quieter) }

/-- The mode and threshold word of READ ZONE (R70). -/
def ZoneMode.word : ZoneMode → Nat
  | .normal => 0
  | .showLocked h => 1 + 256 * h
  | .off => 2

def BankId.code : BankId → Nat
  | .a => 0
  | .b => 1

/-- The reply words of READ ZONE (R70). -/
def State.zoneWords (s : State) (z : Fin 24) : List Word16 :=
  [ BitVec.ofNat 16 (s.zoneFields z).mode.word,
    BitVec.ofNat 16 (s.zoneFields z).master,
    BitVec.ofNat 16 s.mix.duck[z],
    ((s.holder z).map (·.id)).getD 0,
    BitVec.ofNat 16 (((s.winner z).map (fun w => w.2.cls.rank + 1)).getD 0 + 256 * s.scene.active.code),
    BitVec.ofNat 16 (s.trackers[z]).ce ]

def readZone (ws : List Word16) (s : State) : Answer :=
  match ws with
  | [zone] =>
    match wordIndex 24 zone with
    | some z => .report s (s.zoneWords z)
    | none => .refuse .outOfRange s
  | _ => .refuse .badLength s

/-! ### Feed pairs: the output sample of a computation (R85) -/

def State.feedSample (s : State) (f : Fin 4) : Int :=
  let x := s.feeds[f]
  match x.state with
  | .onMain => s.tap x.main
  | .onBackup => s.tap x.backup
  | .bothLost => 0

/-! ### The zone computation -/

/-- The value a route reads from its source, the empty marker contributing 0 (R53). -/
def State.routeSample (s : State) : RouteSource → Int
  | .ringSlot t => orSilence (s.tap t)
  | .localInput i => orSilence (s.inputSample i)
  | .feed f => orSilence (s.feedSample f)

/-- The sum over a zone's routes of one role in a bank; 0 in mode OFF (R62). -/
def State.routeSum (s : State) (b : Bank) (z : Fin 24) (role : RouteRole) : Int :=
  if (b.fields[z]).mode = .off then 0
  else
    ((b.routes.filter (fun r => r.zone == z && r.role == role)).map
      (fun r => s.routeSample r.source * (r.gain : Int))).sum

/-- A value blended from the old and the new bank at the present step of the crossfade (R79). -/
def blend (t i : Nat) (old new : Int) : Int := roundDivBy t (old * ((t - i : Nat) : Int) + new * (i : Int))

/-- P, S or M of a zone: the active bank's, blended with the edit bank's while a TAKE is crossfading (R65, R79). -/
def State.blended (s : State) (f : Bank → Int) : Int :=
  if s.scene.state = .crossfading then blend s.scene.length s.scene.step (f s.editBank) (f s.activeBank)
  else f s.activeBank

/-- The announcement product A of a zone (R62). -/
def State.announcement (s : State) (players : Vector Int 4) (z : Fin 24) : Int :=
  match s.holder z with
  | some p => if p.audible then orSilence (s.pageSample players p) * (p.gain : Int) else 0
  | none => 0

/-- The zone output from P, S, A and M: the scaled terms, each rounded at its stage, then the master and the clamp
(R63, R64). -/
def zoneOutput (p s a : Int) (d tk ce : Nat) (m : Int) : Int :=
  let dt := roundDiv 16384 ((d * tk : Nat) : Int)
  let pm := roundDiv 268435456 (p * dt)
  let sm := roundDiv 16384 s
  let am := roundDiv 268435456 (a * (ce : Int))
  saturate (roundDiv 16384 ((pm + sm + am) * m))

/-- The output sample Z of an uncovered zone (R62 to R65). -/
def State.mixedSample (s : State) (players : Vector Int 4) (z : Fin 24) : Int :=
  zoneOutput (s.blended (fun b => s.routeSum b z .programme)) (s.blended (fun b => s.routeSum b z .showAudio))
    (s.announcement players z) s.mix.duck[z] (Config.trimFactor (s.mix.zoneLocal[z]).trimStep) (s.trackers[z]).ce
    (s.blended (fun b => ((b.fields[z]).master : Int)))

/-! ### The duck envelope -/

/-- The duck target a covered zone's winning record gives: its voice factor while its voice slot is not empty, and
16,384 otherwise (R167). -/
def State.alarmTarget (s : State) (r : AlarmRec) : Nat :=
  match r.voiceSlot with
  | some t => if s.tap t = Config.emptyMarker then 16384 else r.voiceFactor
  | none => 16384

/-- The target of a zone's duck envelope (R67). -/
def State.duckTarget (s : State) (z : Fin 24) : Nat :=
  match s.winner z with
  | some w => s.alarmTarget w.2
  | none => if s.audibleIn z then (s.zoneFields z).depth else 16384

/-- One step of the duck envelope toward a target (R68). -/
def duckStep (target attack release d : Nat) : Nat :=
  if target < d then max target (d - attack) else if d < target then min target (d + release) else d

/-- One step of every zone's envelope (R68). -/
def State.duckAll (s : State) : State :=
  s.setMix { s.mix with
    duck := mapTable
      (fun z d => duckStep (s.duckTarget z) (s.zoneFields z).attack (s.zoneFields z).release d) s.mix.duck }

/-! ### Meanings -/

/-- LOAD_ROUTE (R54). -/
def execLoadRoute (address : NodeAddr) (low : BitVec 8) (s : State) : Host.Outcome State Fault Refusal :=
  .next (request 0x20 loadRoute address low s)

/-- CLEAR_ROUTE (R55). -/
def execClearRoute (address : NodeAddr) (low : BitVec 8) (s : State) : Host.Outcome State Fault Refusal :=
  .next (request 0x21 clearRoute address low s)

/-- SET_ZONE (R57). -/
def execSetZone (address : NodeAddr) (low : BitVec 8) (s : State) : Host.Outcome State Fault Refusal :=
  .next (request 0x22 setZone address low s)

/-- SET_ZONE_LOCAL (R59). -/
def execSetZoneLocal (address : NodeAddr) (low : BitVec 8) (s : State) : Host.Outcome State Fault Refusal :=
  .next (request 0x23 setZoneLocal address low s)

/-- READ_ZONE (R70). -/
def execReadZone (address : NodeAddr) (low : BitVec 8) (s : State) : Host.Outcome State Fault Refusal :=
  .next (request 0x24 readZone address low s)

end Sys2Proof.Machine
end

