-- ==== Sys2Proof/Machine/Scene.lean ====
section
/-! DEFINITION. Scene control and the feed pairs (chapter 5): the edit bank, TAKE and crossfade, changeover, return
and mismatch, and their requests. -/

namespace Sys2Proof.Machine

/-! ### COPY BANK and TAKE -/

def copyBank (ws : List Word16) (s : State) : Answer :=
  match ws with
  | [] =>
    if s.scene.state = .idle then .ok (s.setBank s.scene.active.other s.activeBank) else .refuse .busy s
  | _ => .refuse .badLength s

/-- A TAKE that is taken: with no target it starts before the next computation (R76, R77). -/
def State.beginTake (s : State) (length : Nat) (target : Option (BitVec 16)) : State :=
  s.setScene { s.scene with
    state := .waiting, length := min 4800 length, target := target, start := if target.isNone then .now else .no
    lastDone := false }

def takeOwner (ws : List Word16) (s : State) : Answer :=
  let answer (length : Word16) (target : Option (BitVec 16)) : Answer :=
    if s.scene.state = .idle then
      { state := s.beginTake length.toNat target, status := .accepted, reply := [] }
    else .refuse .busy s
  match ws with
  | [t] => answer t none
  | [t, n] => answer t (some n)
  | _ => .refuse .badLength s

/-- The cycle number of an arriving cycle is compared with the target of a waiting TAKE (R77). -/
def State.compareTake (s : State) (number : BitVec 16) : State :=
  if s.scene.state = .waiting ∧ s.scene.target = some number then s.setScene { s.scene with start := .now } else s

/-- The ring receiver leaves LOCKED: a waiting TAKE starts in the next period (R77). -/
def State.takeRingLost (s : State) : State :=
  if s.scene.state = .waiting ∧ s.scene.start = .no then s.setScene { s.scene with start := .next } else s

/-- The zones a TAKE hands to the page scheduler: those whose mode, or whose SHOW LOCKED threshold, differs between
the banks (R78). -/
def State.changedModes (s : State) : ZoneSet :=
  zonesWhere (fun z => (s.activeBank.fields[z]).mode != (s.editBank.fields[z]).mode)

/-- A TAKE completes: IDLE, no target, TAKE DONE with the bank now active (R80). DESIGN CHOICE (log entry 47): the step
becomes 0 and the length keeps its last value; R80 gives the state and the target alone. -/
def State.completeTake (s : State) : State :=
  (s.setScene { s.scene with state := .idle, target := none, start := .no, lastDone := false, step := 0 }).post
    .takeDone (BitVec.ofNat 16 s.scene.active.code) 0

/-- The start of a TAKE that is due: the banks swap, the changed zones are handed over, and the record enters
CROSSFADING with step 1, or completes at once with T of 0 (R78, R80). -/
def takeStart (s : State) : State :=
  if s.scene.state = .waiting ∧ s.scene.start = .now then
    let changed := s.changedModes
    let s := s.setScene { s.scene with
      active := s.scene.active.other, state := .crossfading, step := 1, start := .no
      handed := s.scene.handed ||| changed }
    if s.scene.length = 0 then s.completeTake else s
  else s

/-- The page scheduler acts, in the start period, on the zones a TAKE has handed it (R78, R110, R112; log entry 14). -/
def State.actOnHanded (s : State) : State :=
  if s.scene.handed = 0 then s else (s.setScene { s.scene with handed := 0 }).handScheduler

/-- After the computation of a period the crossfade step advances; the computation with step T is the last (R79). -/
def Scene.advance (c : Scene) : Scene :=
  match c.state with
  | .crossfading => if c.step < c.length then { c with step := c.step + 1 } else { c with lastDone := true }
  | .waiting => if c.start = .next then { c with start := .now } else c
  | .idle => c

/-- The last computation of a crossfade has been formed: the TAKE completes (R80). DESIGN CHOICE (log entry 37): with T
of 1 the start period is also the completion period, and R81 lets a request of it find the record BUSY or, when it is
taken second, IDLE; a request given after TAKE_DONE finds it IDLE, one given before it finds it BUSY. -/
def takeDone (s : State) : State :=
  if s.scene.state = .crossfading ∧ s.scene.lastDone = true then s.completeTake else s

/-- Scene control's part of a soft reset (R83). DESIGN CHOICE (log entry 47): the step becomes 0 and the length keeps its
last value; R83 gives the state and the target alone. -/
def State.takeReset (s : State) : State :=
  s.setScene { s.scene with
    active := if s.scene.state = .waiting then s.scene.active.other else s.scene.active
    state := .idle, target := none, start := .no, lastDone := false, step := 0, handed := 0 }

/-! ### Feed pairs -/

def State.setFeed (s : State) (f : Fin 4) (x : Feed) : State := s.setFeeds (put s.feeds f x)

/-- The empty state of a pair's two slots in the present computation (5.3). -/
def State.mainEmpty (s : State) (x : Feed) : Bool := s.tap x.main == Config.emptyMarker
def State.backupEmpty (s : State) (x : Feed) : Bool := s.tap x.backup == Config.emptyMarker

def FeedState.code : FeedState → BitVec 4
  | .onMain => 1
  | .onBackup => 2
  | .bothLost => 3

/-- A change of state sets the runs to 0 and posts FEED CHANGED (R85). -/
def State.changeFeed (s : State) (f : Fin 4) (target : FeedState) : State :=
  (s.setFeed f { s.feeds[f] with state := target, selectedEmpty := 0, bothEmpty := 0, mainPresent := 0 }).post
    .feedChanged (BitVec.ofNat 16 f.val) target.code

/-- A run of computations: one longer, up to 48,000, while its condition holds, and 0 otherwise (R85). -/
def runOf (n : Nat) (holds : Bool) : Nat := if holds then min 48000 (n + 1) else 0

/-- The runs of a pair after a computation (R85). -/
def Feed.count (x : Feed) (mainEmpty backupEmpty : Bool) : Feed :=
  { x with
    selectedEmpty :=
      match x.state with
      | .onMain => runOf x.selectedEmpty mainEmpty
      | .onBackup => runOf x.selectedEmpty backupEmpty
      | .bothLost => x.selectedEmpty
    bothEmpty := runOf x.bothEmpty (mainEmpty && backupEmpty)
    mainPresent := runOf x.mainPresent (!mainEmpty) }

/-- The mismatch block of a pair after a computation (R89). -/
def Feed.compare (x : Feed) (main backup : Int) : Feed :=
  let anyEmpty := main == Config.emptyMarker || backup == Config.emptyMarker
  { x with
    qualifies := x.qualifies && !anyEmpty
    blockCount :=
      if !anyEmpty && decide (x.tolerance < (main - backup).natAbs) then x.blockCount + 1 else x.blockCount
    blockPos := if x.blockPos < 480 then x.blockPos + 1 else x.blockPos
    blockDone := x.blockDone || decide (480 ≤ x.blockPos) }

/-- One computation of every pair's runs and block (R85, R89). -/
def State.feedTick (s : State) : State :=
  s.setFeeds (mapTable
    (fun _ x => (x.count (s.mainEmpty x) (s.backupEmpty x)).compare (s.tap x.main) (s.tap x.backup)) s.feeds)

/-- A pair in BOTH LOST returns to a slot that is present, the main slot first (R87). -/
def State.feedRecovery (s : State) (f : Fin 4) : State :=
  let x := s.feeds[f]
  if x.state = .bothLost then
    if s.mainEmpty x = false then s.changeFeed f .onMain
    else if s.backupEmpty x = false then s.changeFeed f .onBackup
    else s
  else s

/-- The state a pair changes over to when its selected slot has been empty for the switch delay and the other is
present (R86). -/
def State.changeover (s : State) (x : Feed) : Option FeedState :=
  if x.delay ≤ x.selectedEmpty then
    match x.state with
    | .onMain => if s.backupEmpty x then none else some .onBackup
    | .onBackup => if s.mainEmpty x then none else some .onMain
    | .bothLost => none
  else none

/-- Changeover on the loss of the selected slot (R86). -/
def feedChangeover (f : Fin 4) (s : State) : State :=
  match s.changeover s.feeds[f] with
  | some target => s.changeFeed f target
  | none => s

/-- Both slots empty for the switch delay, with no changeover to make (R86). -/
def feedBothLost (f : Fin 4) (s : State) : State :=
  let x := s.feeds[f]
  if x.state ≠ .bothLost ∧ s.changeover x = none ∧ x.delay ≤ x.bothEmpty then s.changeFeed f .bothLost else s

/-- A pair ON BACKUP with auto-revert whose main slot has been present for one second returns to it (R88). -/
def feedAutoRevert (f : Fin 4) (s : State) : State :=
  let x := s.feeds[f]
  if x.state = .onBackup ∧ x.autoRevert = true ∧ 48000 ≤ x.mainPresent then s.changeFeed f .onMain else s

/-- The end of a pair's block of 480 computations (R89). -/
def mismatchBlockEnd (f : Fin 4) (s : State) : State :=
  let x := s.feeds[f]
  if x.blockDone then
    let over48 := decide (48 < x.blockCount)
    let s' := s.setFeed f { x with
      mismatch := if x.qualifies then over48 else x.mismatch
      blockPos := 1, qualifies := true, blockCount := 0, blockDone := false }
    if x.qualifies && over48 && !x.mismatch then s'.post .feedMismatch (BitVec.ofNat 16 f.val) 0 else s'
  else s

/-! ### Requests -/

/-- A pair as SET FEED leaves it: the settings replaced, restarted ON MAIN (R84). DESIGN CHOICE (log entry 38): a SET
FEED executed in the period of block position 480, before the end of that block has been taken, abandons the block
with its due end; R84 gives no order of the two. -/
def feedOf (main backup : Fin 64) (delay : Nat) (autoRevert : Bool) (tolerance : Nat) : Feed :=
  { main := main, backup := backup, delay := clampTo 48 48000 delay, autoRevert := autoRevert, tolerance := tolerance
    state := .onMain, selectedEmpty := 0, bothEmpty := 0, mainPresent := 0, blockPos := 1, qualifies := true
    blockCount := 0, mismatch := false, blockDone := false }

/-- Word 0 of SET FEED: the pair, with auto-revert set from 256 on (R84). -/
def feedWord (w : Word16) : Option (Fin 4 × Bool) :=
  match wordIndex 4 w, codedIndex 256 4 w with
  | some f, _ => some (f, false)
  | none, some f => some (f, true)
  | none, none => none

def setFeed (ws : List Word16) (s : State) : Answer :=
  match ws with
  | [w0, main, backup, delay, tolHi, tolLo] =>
    match feedWord w0, wordIndex 64 main, wordIndex 64 backup with
    | some (f, auto), some m, some b =>
      if 127 < tolHi.toNat then .refuse .outOfRange s
      else .ok (s.setFeed f (feedOf m b delay.toNat auto (wide tolHi tolLo)))
    | _, _, _ => .refuse .outOfRange s
  | _ => .refuse .badLength s

def revertFeed (ws : List Word16) (s : State) : Answer :=
  match ws with
  | [w] =>
    match wordIndex 4 w with
    | none => .refuse .outOfRange s
    | some f =>
      let x := s.feeds[f]
      if x.state = .onMain then .ok s
      else if s.mainEmpty x then .refuse .notAllowed s
      else .ok (s.changeFeed f .onMain)
  | _ => .refuse .badLength s

/-! ### Meanings -/

/-- TAKE (R76): addressed, or universal as R34 states. -/
def execTake (address : NodeAddr) (low : BitVec 8) (s : State) : Host.Outcome State Fault Refusal :=
  .next (closeWord (universalRequest 0x28 takeOwner low) takeOwner 0x28 address low s)

/-- TAKE_START (R77). -/
def execTakeStart (s : State) : Host.Outcome State Fault Refusal := .next (takeStart s)

/-- TAKE_DONE (R80). -/
def execTakeDone (s : State) : Host.Outcome State Fault Refusal := .next (takeDone s)

/-- COPY_BANK (R75). -/
def execCopyBank (address : NodeAddr) (low : BitVec 8) (s : State) : Host.Outcome State Fault Refusal :=
  .next (request 0x29 copyBank address low s)

/-- SET_FEED (R84). -/
def execSetFeed (address : NodeAddr) (low : BitVec 8) (s : State) : Host.Outcome State Fault Refusal :=
  .next (request 0x2A setFeed address low s)

/-- REVERT_FEED (R88). -/
def execRevertFeed (address : NodeAddr) (low : BitVec 8) (s : State) : Host.Outcome State Fault Refusal :=
  .next (request 0x2B revertFeed address low s)

/-- FEED_CHANGEOVER (R86). -/
def execFeedChangeover (f : Fin 4) (s : State) : Host.Outcome State Fault Refusal := .next (feedChangeover f s)

/-- FEED_BOTH_LOST (R86). -/
def execFeedBothLost (f : Fin 4) (s : State) : Host.Outcome State Fault Refusal := .next (feedBothLost f s)

/-- FEED_AUTO_REVERT (R88). -/
def execFeedAutoRevert (f : Fin 4) (s : State) : Host.Outcome State Fault Refusal := .next (feedAutoRevert f s)

/-- MISMATCH_BLOCK_END (R89). -/
def execMismatchBlockEnd (f : Fin 4) (s : State) : Host.Outcome State Fault Refusal := .next (mismatchBlockEnd f s)

end Sys2Proof.Machine
end

