-- ==== Sys2Proof/Machine/Intercom.lean ====
section
/-! DEFINITION. The intercom switch (chapter 8): the station table, the station bus, key events, calls, hold, station
audio, and its requests. -/

namespace Sys2Proof.Machine

/-! ### Stations, cue timers and calls in place -/

/-- The entry of a station port, changed in place. -/
def State.updateStation (s : State) (port : Fin 32) (f : Station → Station) : State :=
  s.setIcom { s.icom with table := put s.icom.table port ((s.icom.table[port]).map f) }

/-- The cue timer of a station's entry is set (R133). -/
def State.setCue (s : State) (port : Fin 32) (n : Nat) : State :=
  s.updateStation port (fun e => { e with cueTimer := n, cueDue := false })

/-- A key event of an IDLE station is refused: three seconds of BUSY (R133). -/
def State.refuseKey (s : State) (port : Fin 32) : State := s.setCue port Config.cueTime

/-- The record of a call id. -/
def State.callWith (s : State) (id : CallId) : Option Call := s.icom.calls.find? (fun c => c.id == id)

/-- A call record, changed in place. -/
def State.updateCall (s : State) (id : CallId) (f : Call → Call) : State :=
  s.setIcom { s.icom with calls := s.icom.calls.map (fun c => if c.id = id then f c else c) }

/-- The listen zone of a port's entry. -/
def State.listenZone (s : State) (port : Fin 32) : Option (Fin 24) := (s.icom.table[port]).bind (·.listen)

/-! ### Creating and ending calls -/

/-- The ids after the last call id, counting 1..255 and wrapping (R135). -/
def idsAfter (last : CallId) : List CallId :=
  (List.range 255).map (fun k => BitVec.ofNat 8 ((last.toNat + k) % 255 + 1))

/-- The id a new record takes: the first after the last that no record holds (R135). -/
def State.nextCallId (s : State) : CallId :=
  ((idsAfter s.icom.lastCall).find? (fun id => (s.callWith id).isNone)).getD 0

/-- The call table in ascending order of call id, with one more record. -/
def insertCall (c : Call) : List Call → List Call
  | [] => [c]
  | x :: rest => if x.id.toNat ≤ c.id.toNat then x :: insertCall c rest else c :: x :: rest

/-- A new call record: answered no, no slots, both timers at 0 (R135). -/
def newCall (id : CallId) (parties : CallParties) (emergency : Bool) (headRef : Word16) : Call :=
  { id := id, parties := parties, emergency := emergency, headRef := headRef
    state := (match parties with
      | .trunkOut _ _ => .wanted
      | _ => .ringing)
    answered := false, tx := none, rx := none, ringTimer := 0, holdTimer := 0 }

/-- The call table holds 16 records (R135). -/
def State.callsFull (s : State) : Bool := decide (16 ≤ s.icom.calls.length)

/-- A call is created; its stations leave IDLE with their cue timers at 0 (R133, R135). -/
def State.createCall (s : State) (parties : CallParties) (emergency : Bool) (headRef : Word16) : State :=
  let c := newCall s.nextCallId parties emergency headRef
  c.stations.foldl (fun s p => s.setCue p 0)
    (s.setIcom { s.icom with calls := insertCall c s.icom.calls, lastCall := c.id })

/-- A trunk call to a remote number is created and reported by CALL WANTED (R136, R144). -/
def State.createTrunkOut (s : State) (port : Fin 32) (number : DirNumber) (emergency : Bool) : State :=
  (s.createCall (.trunkOut port number) emergency 0).post .callWanted (s.nextCallId.setWidth 16) 0

/-- The causes of CALL ENDED (2.8.4). -/
def callCleared : BitVec 4 := 1
def callCancelled : BitVec 4 := 2
def callNoAnswerCause : BitVec 4 := 3
def callPreempted : BitVec 4 := 4
def callHeldTooLongCause : BitVec 4 := 5
def callStationLost : BitVec 4 := 6
def callRingLost : BitVec 4 := 7
def callReleased : BitVec 4 := 8
def callReset : BitVec 4 := 9

/-- A call ends: its record and its dynamic insert are removed, its present stations become IDLE with cue timer 0,
and CALL ENDED is posted (R141). -/
def State.endCall (s : State) (id : CallId) (cause : BitVec 4) : State :=
  match s.callWith id with
  | some c =>
    let s := (s.setIcom { s.icom with calls := s.icom.calls.filter (fun x => x.id != id) }).removeTrunkInsert id
    let s := c.stations.foldl (fun s p => if (s.icom.presence[p]).present then s.setCue p 0 else s) s
    s.post .callEnded (id.setWidth 16) cause
  | none => s

/-- Every call a test picks ends, in ascending order of call id (R142, R150). -/
def State.endCalls (s : State) (pick : Call → Bool) (cause : BitVec 4) : State :=
  ((s.icom.calls.filter pick).map (·.id)).foldl (fun s id => s.endCall id cause) s

/-! ### Hold (R145) -/

/-- A call is under hold: the listen zone of a watched station is under GENERAL coverage. -/
def State.underHold (s : State) (c : Call) : Bool :=
  c.stations.any (fun p => (s.listenZone p).any s.underGeneral)

/-- A call that would become CONNECTED enters CONNECTED, or HELD when it is under hold (R137, R140, R145). -/
def State.connect (s : State) (c : Call) : State :=
  let hold := s.underHold c
  s.updateCall c.id (fun x =>
    if hold then { x with state := .held, holdTimer := 0 } else { x with state := .connected })

/-- One call at a hand-off of coverage. A held trunk call ends the activation of its insert (R15). -/
def State.holdOrResume (s : State) (c : Call) : State :=
  match c.state with
  | .connected => if s.underHold c then (s.connect c).endActivation (.trunkCall c.id) else s
  | .held => if s.underHold c then s else s.connect c
  | _ => s

/-- A change of coverage is handed to the intercom switch (R145). -/
def State.handIntercom (s : State) : State := s.icom.calls.foldl State.holdOrResume s

/-! ### The station bus -/

/-- The cue of a port (R133). -/
def State.cue (s : State) (port : Fin 32) : Cue :=
  match s.icom.table[port] with
  | none => .idle
  | some e =>
    match s.stationState port with
    | .idle => if 0 < e.cueTimer then .busy else if e.listen.any s.covered then .alarm else .idle
    | .calling => .ringback
    | .ringing => .ringing
    | .talking => .talking
    | .held => .held
    | .absent => .idle

/-- At the start of a poll slot the next port is polled with its cue (R131); what happens in that period may still
change the cue (R133). -/
def State.pollStart (s : State) : State :=
  if s.icom.slotTime = 0 then
    let p := s.icom.nextPort
    s.setIcom { s.icom with
      awaiting := some p, poll := some (p, s.cue p), nextPort := if h : p.val < 31 then ⟨p.val + 1, by omega⟩ else 0 }
  else s

/-- The poll of a slot that began in this period carries the cue of its station as the period leaves it (R131, R133).
DESIGN CHOICE (log entry 44): the cue is read when the period closes, after every event of the period. -/
def State.pollCue (s : State) : State :=
  if s.icom.slotTime = 1 then
    s.setIcom { s.icom with poll := s.icom.poll.map (fun x => (x.1, s.cue x.1)) }
  else s

/-- One cycle period of the poll slot (R131). -/
def Intercom.slotTick (c : Intercom) : Intercom :=
  { c with slotTime := if c.slotTime < 47 then c.slotTime + 1 else 0 }

/-- The polled station answers (R131, R132). -/
def pollReply (port : Fin 32) (keys : List Key) (s : State) : State :=
  if s.icom.awaiting = some port then
    let found := !(s.icom.presence[port]).present
    let s := s.setIcom { s.icom with
      awaiting := none
      presence := put s.icom.presence port { present := true, misses := 0 }
      keys := s.icom.keys ++ keys.map (fun k => (port, k)) }
    if found then s.post .stationFound (BitVec.ofNat 16 port.val) 0 else s
  else s

/-- The polled station does not answer in its slot (R131, R132). -/
def pollMiss (port : Fin 32) (s : State) : State :=
  if s.icom.awaiting = some port then
    let x := s.icom.presence[port]
    s.setIcom { s.icom with
      awaiting := none, presence := put s.icom.presence port { x with misses := min 3 (x.misses + 1) } }
  else s

/-- The third miss makes a PRESENT port ABSENT (R132). -/
def stationLost (port : Fin 32) (s : State) : State :=
  let x := s.icom.presence[port]
  if x.present = true ∧ x.misses = 3 then
    let call := s.callOf port
    let s := s.setIcom { s.icom with presence := put s.icom.presence port { x with present := false } }
    let s := s.post .stationLost (BitVec.ofNat 16 port.val) 0
    let s := match call with
      | some c => s.endCall c.id callStationLost
      | none => s
    match s.icom.table[port] with
    | some _ => (s.setCue port 0).loseStationPage port
    | none => s
  else s

/-- One cycle period of a cue timer; its last period leaves the expiry due (R133). -/
def Station.tick (e : Station) : Station :=
  if 1 < e.cueTimer then { e with cueTimer := e.cueTimer - 1 }
  else if e.cueTimer = 1 then { e with cueDue := true }
  else e

/-- The cue timer of a port's entry reaches 0 (R133). -/
def cueTimerExpiry (port : Fin 32) (s : State) : State :=
  if (s.icom.table[port]).any (·.cueDue) then s.setCue port 0 else s

/-- One cycle period of a call's timers (R135). -/
def Call.tick (c : Call) : Call :=
  match c.state with
  | .wanted => { c with ringTimer := c.ringTimer + 1 }
  | .ringing => { c with ringTimer := c.ringTimer + 1 }
  | .held => { c with holdTimer := c.holdTimer + 1 }
  | .connected => c

/-- One cycle period of every timer of the switch. -/
def State.icomTick (s : State) : State :=
  s.setIcom { s.icom with
    table := mapTable (fun _ (e : Option Station) => e.map Station.tick) s.icom.table, calls := s.icom.calls.map Call.tick }.slotTick

/-- A call rung too long ends NO ANSWER (R142). -/
def callNoAnswer (id : CallId) (s : State) : State :=
  match s.callWith id with
  | some c =>
    if (c.state = .wanted ∨ c.state = .ringing) ∧ s.ctl.settings.ringTimeout * Config.second ≤ c.ringTimer then
      s.endCall id callNoAnswerCause
    else s
  | none => s

/-- A call held too long ends HELD TOO LONG (R142). -/
def callHeldTooLong (id : CallId) (s : State) : State :=
  match s.callWith id with
  | some c =>
    if c.state = .held ∧ s.ctl.settings.holdLimit * Config.second ≤ c.holdTimer then s.endCall id callHeldTooLongCause
    else s
  | none => s

/-! ### Key events -/

/-- The next key event in hand is handled when it is the one named: removed from those in hand, and acted on with
the entry of its port; a port without an entry discards it (R129, R131, R134). -/
def State.onKey (s : State) (port : Fin 32) (key : Key) (act : Station → State → State) : State :=
  match s.icom.keys with
  | (p, k) :: rest =>
    if p = port ∧ k = key then
      let s := s.setIcom { s.icom with keys := rest }
      match s.icom.table[port] with
      | some e => act e s
      | none => s
    else s
  | [] => s

/-- A CALL from an IDLE station (R136). -/
def State.dial (s : State) (port : Fin 32) (number : DirNumber) : State :=
  if s.callsFull then s.refuseKey port
  else
    match s.stationWith number with
    | some b =>
      if b = port then s.refuseKey port
      else if s.stationState b = .idle then s.createCall (.loc port b) false 0
      else s.refuseKey port
    | none => s.createTrunkOut port number false

def callKey (port : Fin 32) (number : DirNumber) (s : State) : State :=
  s.onKey port (.call number) (fun _ s => if s.stationState port = .idle then s.dial port number else s)

/-- An ANSWER from a RINGING station (R137). -/
def State.answerCall (s : State) (port : Fin 32) (c : Call) : State :=
  match c.parties with
  | .loc _ _ => (s.setCue port 0).connect c
  | _ =>
    ((s.setCue port 0).updateCall c.id (fun x => { x with answered := true })).post .callAnswered
      (c.id.setWidth 16) 0

def answerKey (port : Fin 32) (s : State) : State :=
  s.onKey port .answer (fun _ s =>
    match s.stationState port, s.callOf port with
    | .ringing, some c => s.answerCall port c
    | _, _ => s)

/-- The cause with which a HANG UP of a party ends its call (R138). -/
def Call.hangUpCause (c : Call) (port : Fin 32) : BitVec 4 :=
  match c.state, c.parties with
  | .wanted, _ => callCancelled
  | .ringing, .loc a _ => if port = a then callCancelled else callCleared
  | .ringing, .trunkOut _ _ => callCancelled
  | .ringing, .trunkIn _ _ => callCleared
  | _, _ => callCleared

def hangUpKey (port : Fin 32) (s : State) : State :=
  s.onKey port .hangUp (fun _ s =>
    match s.stationState port, s.callOf port with
    | .absent, _ => s
    | .idle, _ => s.setCue port 0
    | _, some c => s.endCall c.id (c.hangUpCause port)
    | _, none => s)

/-- An EMERGENCY call to a number (R144). -/
def State.dialEmergency (s : State) (port : Fin 32) (number : DirNumber) : State :=
  match s.stationWith number with
  | some b =>
    if b = port then s.refuseKey port
    else
      match s.stationState b, s.callOf b with
      | .absent, _ => s.refuseKey port
      | .idle, _ => if s.callsFull then s.refuseKey port else s.createCall (.loc port b) true 0
      | _, some c =>
        if c.emergency then s.refuseKey port
        else (s.endCall c.id callPreempted).createCall (.loc port b) true 0
      | _, none => s.refuseKey port
  | none => if s.callsFull then s.refuseKey port else s.createTrunkOut port number true

def emergencyKey (port : Fin 32) (s : State) : State :=
  s.onKey port .emergency (fun _ s =>
    if s.stationState port = .idle ∧ s.ctl.settings.emergency ≠ 0 then s.dialEmergency port s.ctl.settings.emergency
    else s)

/-- PAGE PRESS (R125, R148). -/
def pagePressKey (port : Fin 32) (s : State) : State :=
  s.onKey port .pagePress (fun e s =>
    match s.stationState port with
    | .absent => s
    | st =>
      if s.pressRefused port e then if st = .idle then s.refuseKey port else s
      else (s.setCue port 0).enqueue (stationPage port e))

/-- PAGE RELEASE (R125, R148). DESIGN CHOICE (log entry 58): one from a station with no page in the queue sets the cue
timer to 0, as a key event that is handled and not refused (R133, R134), though R125 says that it has no effect; so
releasing the key of a refused press ends the BUSY cue. -/
def pageReleaseKey (port : Fin 32) (s : State) : State :=
  s.onKey port .pageRelease (fun _ s =>
    match s.stationState port with
    | .absent => s
    | _ => (s.setCue port 0).releaseStationPage port)

/-- VOLUME UP and VOLUME DOWN (R148). -/
def volumeKey (port : Fin 32) (key : Key) (quieter : Bool) (s : State) : State :=
  s.onKey port key (fun e s =>
    match s.stationState port, e.volumeZone with
    | .absent, _ => s
    | _, some z => s.trimRequest z quieter
    | _, none => s)

/-- A key event in hand, by its kind (R134). -/
def handleKey (port : Fin 32) (key : Key) (s : State) : State :=
  match key with
  | .call n => callKey port n s
  | .answer => answerKey port s
  | .hangUp => hangUpKey port s
  | .emergency => emergencyKey port s
  | .pagePress => pagePressKey port s
  | .pageRelease => pageReleaseKey port s
  | .volumeUp => volumeKey port .volumeUp false s
  | .volumeDown => volumeKey port .volumeDown true s

/-! ### Station audio (R146, R147) -/

/-- The mic sample of a station (R147). -/
def State.micSample (s : State) (port : Fin 32) : Int :=
  match s.icom.table[port] with
  | some e => s.inputSample e.mic
  | none => 0

/-- What a party to a CONNECTED call hears of it, before the call gain (R146). -/
def State.callAudio (s : State) (c : Call) (port : Fin 32) : Int :=
  match c.parties with
  | .loc a b => if port = a then s.micSample b else s.micSample a
  | _ => (c.rx.map (fun t => orSilence (s.tap t))).getD 0

/-- A call sample with the call gain (R146). -/
def withCallGain (gain : Nat) (x : Int) : Int := saturate (roundDiv 16384 (x * (gain : Int)))

/-- The holder page of a zone breaks in on a call (R146). -/
def State.breaksIn (s : State) (e : Station) (z : Fin 24) : Bool :=
  (s.holder z).any (fun p => p.audible && decide (e.breakIn ≤ p.priority))

/-- The speaker sample of a station port, from the zone outputs of the computation (R146). -/
def State.speakerSample (s : State) (zones : Vector Int 24) (port : Fin 32) : Int :=
  match s.icom.table[port] with
  | none => 0
  | some e =>
    let listen : Int := match e.listen with
      | some z => zones[z]
      | none => 0
    if e.listen.any s.covered then listen
    else
      match s.stationState port, s.callOf port with
      | .talking, some c =>
        if c.state = .connected then
          if e.listen.any (s.breaksIn e) then listen
          else withCallGain s.ctl.settings.callGain (s.callAudio c port)
        else 0
      | _, _ => listen

/-- The samples of the tx inserts: the mic sample of party A of each CONNECTED trunk call (R15, R147). -/
def State.trunkSamples (s : State) : List (CallId × Int) :=
  (s.icom.calls.filter (fun c => c.trunk && c.state == .connected)).map
    (fun c => (c.id, (c.stations.head?.map s.micSample).getD 0))

/-! ### Soft reset and release (R150) -/

/-- The switch's part of a soft reset, after its calls have ended (R150). DESIGN CHOICE (log entry 50): taken in the
period of a third miss, after POLL_MISS and before STATION_LOST, it sets the miss count to 0 and drops the loss that is
due: the port stays PRESENT. -/
def State.icomReset (s : State) : State :=
  s.setIcom { s.icom with
    table := mapTable (fun _ (e : Option Station) => e.map (fun e => { e with cueTimer := 0, cueDue := false })) s.icom.table
    presence := mapTable (fun _ x => { x with misses := 0 }) s.icom.presence
    nextPort := 0 }

/-! ### Requests -/

/-- The entry a SET STATION writes, from its words 1 to 10 with the clamps; none when a field is outside its values
(R130). -/
def stationOf (number mic speaker listen breakIn groupLow groupHigh prio limit volume : Word16) : Option Station :=
  match dirNumber number, wordIndex 32 mic, wordIndex 32 speaker, optionalIndex 24 255 listen,
      zoneSetOf groupLow groupHigh, optionalIndex 24 255 volume with
  | some n, some m, some c, some l, some g, some v =>
    some
      { number := n, mic := m, speaker := c, listen := l, breakIn := clampTo 1 16 breakIn.toNat, pageGroup := g
        pagePrio := clampTo 1 15 prio.toNat, pageLimit := clampTo 1 600 limit.toNat, volumeZone := v, cueTimer := 0
        cueDue := false }
  | _, _, _, _, _, _ => none

/-- The port's station is a party to a call, or the queue holds its station page (R130). -/
def State.stationInUse (s : State) (port : Fin 32) : Bool :=
  (s.callOf port).isSome || (s.page (stationPageId port)).isSome

def State.setStationEntry (s : State) (port : Fin 32) (e : Option Station) : State :=
  s.setIcom { s.icom with table := put s.icom.table port e }

/-- A replaced entry keeps its station state and cue timer, a new one has cue timer 0 (R130). -/
def Station.keepingCue (e : Station) (old : Option Station) : Station :=
  match old with
  | some o => { e with cueTimer := o.cueTimer, cueDue := o.cueDue }
  | none => e

def setStation (ws : List Word16) (s : State) : Answer :=
  match ws with
  | [port, number, mic, speaker, listen, breakIn, groupLow, groupHigh, prio, limit, volume] =>
    match wordIndex 32 port with
    | none => .refuse .outOfRange s
    | some p =>
      if number.toNat = 0 then
        if (s.icom.table[p]).isNone then .refuse .notFound s
        else if s.stationInUse p then .refuse .inUse s
        else .ok (s.setStationEntry p none)
      else
        match stationOf number mic speaker listen breakIn groupLow groupHigh prio limit volume with
        | none => .refuse .outOfRange s
        | some e =>
          if s.stationInUse p then .refuse .inUse s
          else if (s.stationWith e.number).any (fun q => q != p) then .refuse .duplicate s
          else if s.ports.channels[e.speaker] ≠ .station p then .refuse .notAllowed s
          else .ok (s.setStationEntry p (some (e.keepingCue s.icom.table[p])))
  | _ => .refuse .badLength s

/-- A station may be given a call by OFFER CALL: at once when IDLE, by pre-emption of its NORMAL call when the offer
is EMERGENCY (R139, R144). -/
inductive OfferRoom where
  | free
  | preempt (id : CallId)
  | busy
deriving DecidableEq, Repr

def State.offerRoom (s : State) (port : Fin 32) (emergency : Bool) : OfferRoom :=
  match s.stationState port, s.callOf port with
  | .absent, _ => .busy
  | .idle, _ => .free
  | _, some c => if emergency && !c.emergency then .preempt c.id else .busy
  | _, none => .busy

/-- The TRUNK IN call of an offer, answered with its call id (R139). -/
def State.offer (s : State) (port : Fin 32) (emergency : Bool) (remote : DirNumber) (headRef : Word16) : Answer :=
  .report (s.createCall (.trunkIn port remote) emergency headRef) [s.nextCallId.setWidth 16]

def offerCall (ws : List Word16) (s : State) : Answer :=
  match ws with
  | [w0, remote, headRef] =>
    let emergency := w0.getLsbD 15
    match dirNumber (w0 &&& 0x3FFF), dirNumber remote with
    | some n, some r =>
      if w0.getLsbD 14 then .refuse .outOfRange s
      else
        match s.stationWith n with
        | none => .refuse .notFound s
        | some p =>
          match s.offerRoom p emergency with
          | .busy => .refuse .busy s
          | .free => if s.callsFull then .refuse .full s else s.offer p emergency r headRef
          | .preempt id => (s.endCall id callPreempted).offer p emergency r headRef
    | _, _ => .refuse .outOfRange s
  | _ => .refuse .badLength s

/-- A call whose audio may be bridged (R140). -/
def Call.bridgeable (c : Call) : Bool :=
  match c.parties with
  | .loc _ _ => false
  | .trunkOut _ _ => c.state == .wanted
  | .trunkIn _ _ => c.state == .ringing && c.answered

/-- The dynamic insert is added, the record takes both slots, and the call becomes CONNECTED or HELD (R140). -/
def State.bridge (s : State) (c : Call) (tx rx : Fin 64) : State :=
  ((s.addInsert tx (.trunkCall c.id)).updateCall c.id (fun x => { x with tx := some tx, rx := some rx })).connect c

def bridgeCall (ws : List Word16) (s : State) : Answer :=
  match ws with
  | [id, tx, rx] =>
    match byteId id, wordIndex 64 tx, wordIndex 64 rx with
    | some i, some t, some r =>
      match s.callWith i with
      | none => .refuse .notFound s
      | some c =>
        if c.bridgeable = false then .refuse .notAllowed s
        else if s.slotNamed t then .refuse .conflict s
        else .ok (s.bridge c t r)
    | _, _, _ => .refuse .outOfRange s
  | _ => .refuse .badLength s

def endCallRequest (ws : List Word16) (s : State) : Answer :=
  match ws with
  | [id, cause] =>
    match byteId id with
    | none => .refuse .outOfRange s
    | some i =>
      if cause.toNat < 10 ∨ 15 < cause.toNat then .refuse .outOfRange s
      else if (s.callWith i).isNone then .refuse .notFound s
      else .ok (s.endCall i (cause.setWidth 4))
  | _ => .refuse .badLength s

def CallState.code : CallState → Nat
  | .wanted => 1
  | .ringing => 2
  | .connected => 3
  | .held => 4

/-- The kind code, party A and party B word of a call (R149). -/
def CallParties.kindCode : CallParties → Nat
  | .loc _ _ => 1
  | .trunkOut _ _ => 2
  | .trunkIn _ _ => 3

def CallParties.partyA : CallParties → Fin 32
  | .loc a _ => a
  | .trunkOut a _ => a
  | .trunkIn a _ => a

def CallParties.wordB : CallParties → Word16
  | .loc _ b => BitVec.ofNat 16 (32768 + b.val)
  | .trunkOut _ n => n.setWidth 16
  | .trunkIn _ n => n.setWidth 16

/-- A slot of READ CALL, 255 when absent (R149). -/
def slotByte (t : Option (Fin 64)) : Nat := (t.map Fin.val).getD 255

/-- The reply words of READ CALL (R149). -/
def Call.words (c : Call) : List Word16 :=
  [ BitVec.ofNat 16
      (c.parties.kindCode + (if c.emergency then 4 else 0) + 8 * c.state.code + (if c.answered then 64 else 0)
        + 256 * c.parties.partyA.val),
    c.parties.wordB, c.headRef, BitVec.ofNat 16 (slotByte c.tx + 256 * slotByte c.rx),
    BitVec.ofNat 16 (c.ringTimer / Config.second), BitVec.ofNat 16 (c.holdTimer / Config.second) ]

def readCall (ws : List Word16) (s : State) : Answer :=
  match ws with
  | [id] =>
    match byteId id with
    | none => .refuse .outOfRange s
    | some i =>
      match s.callWith i with
      | none => .refuse .notFound s
      | some c => .report s c.words
  | _ => .refuse .badLength s

/-! ### Meanings -/

/-- POLL_REPLY (R131). -/
def execPollReply (port : Fin 32) (keys : List Key) (s : State) : Host.Outcome State Fault Refusal :=
  .next (pollReply port keys s)

/-- POLL_MISS (R131). -/
def execPollMiss (port : Fin 32) (s : State) : Host.Outcome State Fault Refusal := .next (pollMiss port s)

/-- STATION_LOST (R132). -/
def execStationLost (port : Fin 32) (s : State) : Host.Outcome State Fault Refusal := .next (stationLost port s)

/-- CUE_TIMER_EXPIRY (R133). -/
def execCueTimerExpiry (port : Fin 32) (s : State) : Host.Outcome State Fault Refusal :=
  .next (cueTimerExpiry port s)

/-- CALL (R136). -/
def execCall (port : Fin 32) (number : DirNumber) (s : State) : Host.Outcome State Fault Refusal :=
  .next (callKey port number s)

/-- ANSWER (R137). -/
def execAnswer (port : Fin 32) (s : State) : Host.Outcome State Fault Refusal := .next (answerKey port s)

/-- HANG_UP (R138). -/
def execHangUp (port : Fin 32) (s : State) : Host.Outcome State Fault Refusal := .next (hangUpKey port s)

/-- EMERGENCY (R144). -/
def execEmergency (port : Fin 32) (s : State) : Host.Outcome State Fault Refusal := .next (emergencyKey port s)

/-- PAGE_PRESS (R125, R148). -/
def execPagePress (port : Fin 32) (s : State) : Host.Outcome State Fault Refusal := .next (pagePressKey port s)

/-- PAGE_RELEASE (R125, R148). -/
def execPageRelease (port : Fin 32) (s : State) : Host.Outcome State Fault Refusal := .next (pageReleaseKey port s)

/-- VOLUME_UP (R148). -/
def execVolumeUp (port : Fin 32) (s : State) : Host.Outcome State Fault Refusal :=
  .next (volumeKey port .volumeUp false s)

/-- VOLUME_DOWN (R148). -/
def execVolumeDown (port : Fin 32) (s : State) : Host.Outcome State Fault Refusal :=
  .next (volumeKey port .volumeDown true s)

/-- SET_STATION (R130). -/
def execSetStation (address : NodeAddr) (low : BitVec 8) (s : State) : Host.Outcome State Fault Refusal :=
  .next (request 0x40 setStation address low s)

/-- OFFER_CALL (R139). -/
def execOfferCall (address : NodeAddr) (low : BitVec 8) (s : State) : Host.Outcome State Fault Refusal :=
  .next (request 0x41 offerCall address low s)

/-- BRIDGE_CALL (R140). -/
def execBridgeCall (address : NodeAddr) (low : BitVec 8) (s : State) : Host.Outcome State Fault Refusal :=
  .next (request 0x42 bridgeCall address low s)

/-- END_CALL (R141). -/
def execEndCall (address : NodeAddr) (low : BitVec 8) (s : State) : Host.Outcome State Fault Refusal :=
  .next (request 0x43 endCallRequest address low s)

/-- CALL_NO_ANSWER (R142). -/
def execCallNoAnswer (id : CallId) (s : State) : Host.Outcome State Fault Refusal := .next (callNoAnswer id s)

/-- CALL_HELD_TOO_LONG (R142). -/
def execCallHeldTooLong (id : CallId) (s : State) : Host.Outcome State Fault Refusal := .next (callHeldTooLong id s)

/-- READ_CALL (R149). -/
def execReadCall (address : NodeAddr) (low : BitVec 8) (s : State) : Host.Outcome State Fault Refusal :=
  .next (request 0x44 readCall address low s)

end Sys2Proof.Machine
end

