-- ==== Sys2Proof/Machine/Alarms.lean ====
section
/-! DEFINITION. The alarm engine (chapter 9): patterns and generators, records, contacts, remote records, coverage,
the covered zone output, the arrival of an alert word, and its requests. -/

namespace Sys2Proof.Machine

/-! ### Patterns (R151) -/

/-- Pattern 0, built in. -/
def builtInStep : PatternStep :=
  { mode := .steady, duration := 100, n1 := 60, n2 := 0, amplitude := 4194304, last := true }

/-- How a step position that is not loaded plays. -/
def unloadedStep : PatternStep :=
  { mode := .silent, duration := 1, n1 := 0, n2 := 0, amplitude := 0, last := false }

/-- The loaded steps of a pattern, none for pattern 0. -/
def Alarm.steps (a : Alarm) (pattern : Fin 8) : Vector (Option PatternStep) 16 :=
  if h : 1 ≤ pattern.val then a.patterns[pattern.val - 1]'(by omega) else Vector.replicate 16 none

/-- The pattern has a loaded step; one that has none plays as pattern 0. -/
def Alarm.loaded (a : Alarm) (pattern : Fin 8) : Bool :=
  (indices 16).any (fun i => ((a.steps pattern)[i]).isSome)

/-- The length of a pattern: one more than its lowest loaded last step, 16 without one. -/
def Alarm.length (a : Alarm) (pattern : Fin 8) : Nat :=
  if a.loaded pattern then
    (((indices 16).find? (fun i => ((a.steps pattern)[i]).any (·.last))).map (fun i => i.val + 1)).getD 16
  else 1

/-- The step a pattern plays at a step number. -/
def Alarm.stepAt (a : Alarm) (pattern : Fin 8) (i : Nat) : PatternStep :=
  if a.loaded pattern then
    if h : i < 16 then ((a.steps pattern)[i]).getD unloadedStep else unloadedStep
  else builtInStep

/-! ### Generators (R153) -/

/-- The step is silent. -/
def PatternStep.silent (p : PatternStep) : Bool :=
  match p.mode with
  | .steady => p.n1 == 0
  | .sweep => p.n1 == 0 || p.n2 == 0
  | .silent => true

/-- The samples of a step. -/
def PatternStep.samples (p : PatternStep) : Nat := p.duration * Config.tick

/-- The divider of the period that begins at an elapsed count, limited to 24..4,800. -/
def PatternStep.divider (p : PatternStep) (e : Nat) : Nat :=
  clampTo 24 4800 (match p.mode with
    | .sweep =>
      if p.n1 ≤ p.n2 then p.n1 + (p.n2 - p.n1) * e / p.samples else p.n1 - (p.n1 - p.n2) * e / p.samples
    | _ => p.n1)

/-- The divider of the present period: chosen at its start, kept after it. -/
def Generator.period (g : Generator) (p : PatternStep) : Nat :=
  if g.position = 0 then p.divider g.elapsed else g.divider

/-- The sample a held generator forms. -/
def Generator.sample (g : Generator) (p : PatternStep) : Int :=
  if p.silent then 0
  else if g.position < (g.period p + 1) / 2 then saturate p.amplitude
  else saturate (-(p.amplitude : Int))

/-- A held generator after its sample; the end of a step is a command of its own. -/
def Generator.advance (g : Generator) (p : PatternStep) : Generator :=
  if p.silent then { g with elapsed := g.elapsed + 1 }
  else
    { g with
      elapsed := g.elapsed + 1, divider := g.period p
      position := if g.position + 1 < g.period p then g.position + 1 else 0 }

/-- A generator that becomes held starts its record's pattern. -/
def Generator.start (entry pattern : Fin 8) : Generator :=
  { entry := entry, pattern := pattern, step := 0, elapsed := 0, position := 0, divider := 0 }

/-- The samples of the four generators in this computation; a free one forms none. -/
def Alarm.generatorSamples (a : Alarm) : Vector Int 4 :=
  mapTable (fun _ (g : Option Generator) => match g with
    | some g => g.sample (a.stepAt g.pattern g.step)
    | none => 0) a.generators

/-- Every held generator advances by one sample. -/
def Alarm.advanceAll (a : Alarm) : Alarm :=
  { a with
    generators := mapTable
      (fun _ (g : Option Generator) => g.map (fun g => g.advance (a.stepAt g.pattern g.step))) a.generators }

/-- The end of a generator's step: the next step, or step 0 after the last (R151, R153). -/
def Generator.nextStep (g : Generator) (length : Nat) : Generator :=
  { g with step := if g.step + 1 < length then g.step + 1 else 0, elapsed := 0, position := 0 }

def generatorStepEnd (i : Fin 4) (s : State) : State :=
  match s.alarm.generators[i] with
  | some g =>
    if (s.alarm.stepAt g.pattern g.step).samples ≤ g.elapsed then
      s.setAlarm { s.alarm with
        generators := put s.alarm.generators i (some (g.nextStep (s.alarm.length g.pattern))) }
    else s
  | none => s

/-! ### Coverage and the giving out of generators (R165, R166) -/

/-- The entry's record is SOUNDING and its group contains a zone. -/
def Alarm.covers (a : Alarm) (z : Fin 24) (e : Fin 8) : Bool :=
  (a.records[e]).any (fun r => r.sounding && hasZone a.groups[r.group] z)

/-- The rank of an entry's class. -/
def Alarm.rank (a : Alarm) (e : Fin 8) : Nat := ((a.records[e]).map (·.cls.rank)).getD 0

/-- Entries ranked by class, highest first, and within a class in the order given. -/
def Alarm.ranked (a : Alarm) (es : List (Fin 8)) : List (Fin 8) :=
  [3, 2, 1, 0].flatMap (fun r => es.filter (fun e => a.rank e == r))

/-- The winning record of a zone. -/
def Alarm.winnerOf (a : Alarm) (z : Fin 24) : Option (Fin 8) := (a.ranked (a.startOrder.filter (a.covers z))).head?

/-- The winning records, ranked. -/
def Alarm.winners (a : Alarm) : List (Fin 8) :=
  a.ranked (a.startOrder.filter (fun e => allZones.any (fun z => a.coverage[z] == some e)))

/-- An entry holds a generator. -/
def Alarm.holds (a : Alarm) (e : Fin 8) : Bool := (indices 4).any (fun i => (a.generators[i]).any (fun g => g.entry == e))

/-- Generators whose record a test does not pick are given up. -/
def Alarm.keepGenerators (a : Alarm) (pick : Fin 8 → Bool) : Alarm :=
  { a with
    generators := mapTable (fun _ (g : Option Generator) => g.filter (fun g => pick g.entry)) a.generators }

/-- A record that holds no generator takes the lowest-numbered free one. -/
def Alarm.takeGenerator (a : Alarm) (e : Fin 8) : Alarm :=
  if a.holds e then a
  else
    match (indices 4).find? (fun i => (a.generators[i]).isNone) with
    | some i =>
      { a with
        generators := put a.generators i
          (some (Generator.start e (((a.records[e]).map (·.pattern)).getD 0))) }
    | none => a

/-- The generators are given out to the first four winning records (R166). -/
def Alarm.allocate (a : Alarm) : Alarm :=
  let first := a.winners.take 4
  first.foldl Alarm.takeGenerator (a.keepGenerators (fun e => first.contains e))

/-- Coverage and generators, recomputed. -/
def Alarm.recompute (a : Alarm) : Alarm := { a with coverage := Vector.ofFn a.winnerOf }.allocate

/-- What the neighbours see of coverage: the winner of each zone with its class. -/
def Alarm.presented (a : Alarm) : List (Option (Fin 8 × Option AlarmClass)) :=
  allZones.map (fun z => (a.coverage[z]).map (fun e => (e, (a.records[e]).map (·.cls))))

/-- Coverage is recomputed and, when it differs from what it was, handed to the page scheduler and the intercom
switch; the tracker reads it in each computation (R165). The PAGE SUSPENDED records of the hand-off join the event list
after the ALARM BEGUN or ALARM ENDED that brings it about (DESIGN CHOICE, log entry 46). -/
def State.recoverage (s : State) (before : Alarm) : State :=
  let s := s.setAlarm s.alarm.recompute
  if s.alarm.presented = before.presented then s else s.handScheduler.handIntercom

/-! ### Records (R154, R155) -/

/-- A record's state is placed in the alert send list (R21). -/
def State.placeRecord (s : State) (e : Fin 8) (r : AlarmRec) (on : Bool) : State :=
  s.placeSend { entry := e, on := on, group := r.group, cls := r.cls, pattern := r.pattern, fresh := true }

/-- A record starts in an entry (R154). -/
def State.startRecord (s : State) (e : Fin 8) (r : AlarmRec) : State :=
  let before := s.alarm
  let s := s.setAlarm { s.alarm with
    records := put s.alarm.records e (some r), startOrder := s.alarm.startOrder.filter (· != e) ++ [e] }
  let s := s.post .alarmBegun (BitVec.ofNat 16 e.val) (BitVec.ofNat 4 r.cls.rank)
  let s := if r.broadcast then s.placeRecord e r true else s
  s.recoverage before

/-- The causes of ALARM ENDED (2.8.4). -/
def alarmCleared : BitVec 4 := 1
def alarmStopped : BitVec 4 := 2
def alarmRemoteOff : BitVec 4 := 3
def alarmNotConfirmed : BitVec 4 := 4
def alarmDisplaced : BitVec 4 := 5

/-- The record of an entry ends (R155). -/
def State.endRecord (s : State) (e : Fin 8) (cause : BitVec 4) : State :=
  match s.alarm.records[e] with
  | some r =>
    let before := s.alarm
    let s := s.setAlarm ({ s.alarm with
      records := put s.alarm.records e none
      startOrder := s.alarm.startOrder.filter (· != e) }.keepGenerators (· != e))
    let s := s.post .alarmEnded (BitVec.ofNat 16 e.val) cause
    let s := if r.broadcast then s.placeRecord e r false else s
    if r.sounding then s.recoverage before else s
  | none => s

/-- A new record, SOUNDING, with its timers at 0 (R154). -/
def newRecord (origin : AlarmOrigin) (cls : AlarmClass) (group pattern : Fin 8) (voice : Option (Fin 64))
    (factor : Nat) (broadcast : Bool) : AlarmRec :=
  { origin := origin, cls := cls, group := group, pattern := pattern, voiceSlot := voice, voiceFactor := factor
    broadcast := broadcast, sounding := true, refreshTimer := 0, broadcastTimer := 0 }

/-- The shared entries (R154). -/
def sharedEntries : List (Fin 8) := [4, 5, 6, 7]

/-- The lowest-numbered free shared entry. -/
def Alarm.freeShared (a : Alarm) : Option (Fin 8) := sharedEntries.find? (fun e => (a.records[e]).isNone)

/-! ### Contact lines (R156) -/

/-- One sample of a contact line. -/
def Contact.sample (c : Contact) (activeLevel : Bool) : Contact :=
  { c with run := if activeLevel != c.active then min 48000 (c.run + 1) else 0 }

def State.setContact (s : State) (k : Fin 4) (c : Contact) : State :=
  s.setAlarm { s.alarm with contacts := put s.alarm.contacts k c }

/-- The entry of a contact line. -/
def contactEntry (k : Fin 4) : Fin 8 := ⟨k.val, by omega⟩

/-- 50 ms of active samples: the line becomes ACTIVE and its record starts. -/
def contactActivate (k : Fin 4) (s : State) : State :=
  let c := s.alarm.contacts[k]
  if c.active = false ∧ 2400 ≤ c.run then
    (s.setContact k { c with active := true, run := 0 }).startRecord (contactEntry k)
      (newRecord (.contact k) c.cls c.group c.pattern none 4096 c.broadcast)
  else s

/-- One second of idle samples: the line becomes IDLE and its record ends CLEARED. -/
def contactClear (k : Fin 4) (s : State) : State :=
  let c := s.alarm.contacts[k]
  if c.active = true ∧ 48000 ≤ c.run then
    (s.setContact k { c with active := false, run := 0 }).endRecord (contactEntry k) alarmCleared
  else s

/-! ### Timers (R162, R163) -/

/-- The record is REMOTE. -/
def AlarmRec.remote (r : AlarmRec) : Bool :=
  match r.origin with
  | .remote _ _ => true
  | _ => false

/-- One cycle period of a record's timers; refresh timers run only while LOCKED. -/
def AlarmRec.tick (r : AlarmRec) (locked : Bool) : AlarmRec :=
  { r with
    broadcastTimer := if r.broadcast then min 96000 (r.broadcastTimer + 1) else r.broadcastTimer
    refreshTimer := if r.remote && locked then min 288000 (r.refreshTimer + 1) else r.refreshTimer }

/-- One cycle period of the alarm engine's timers and contact lines; the level of a line is low when it is active. -/
def State.alarmTick (s : State) (levels : BitVec 4) : State :=
  s.setAlarm { s.alarm with
    records := mapTable (fun _ (r : Option AlarmRec) => r.map (fun r => r.tick s.heard)) s.alarm.records
    contacts := mapTable (fun k (c : Contact) => c.sample (!levels.getLsbD k.val)) s.alarm.contacts }

/-- Two seconds after its last placement a broadcast record places ON again (R162). -/
def broadcastRefresh (e : Fin 8) (s : State) : State :=
  match s.alarm.records[e] with
  | some r =>
    if r.broadcast = true ∧ 96000 ≤ r.broadcastTimer then
      (s.setAlarm { s.alarm with
        records := put s.alarm.records e (some { r with broadcastTimer := 0 }) }).placeRecord e r true
    else s
  | none => s

/-- Six seconds of lock without a refresh end a REMOTE record (R163). -/
def notConfirmed (e : Fin 8) (s : State) : State :=
  match s.alarm.records[e] with
  | some r =>
    if r.remote = true ∧ 288000 ≤ r.refreshTimer then s.endRecord e alarmNotConfirmed else s
  | none => s

/-! ### Alert words (R20, R163, R164) -/

/-- The REMOTE record of an origin address and a group. -/
def Alarm.remoteEntry (a : Alarm) (origin : NodeAddr) (group : Fin 8) : Option (Fin 8) :=
  (indices 8).find? (fun e => (a.records[e]).any (fun r => r.origin == .remote origin group))

/-- A held generator of an entry restarts when its record's pattern has changed (R163). -/
def Alarm.restartGenerator (a : Alarm) (e pattern : Fin 8) : Alarm :=
  { a with
    generators := mapTable (fun _ (g : Option Generator) =>
      g.map (fun g => if g.entry = e ∧ g.pattern ≠ pattern then Generator.start e pattern else g)) a.generators }

/-- A refresh: timer 0, the word's class and pattern; raised to GENERAL, a SILENCED record sounds again (R163). -/
def State.refresh (s : State) (e : Fin 8) (r : AlarmRec) (cls : AlarmClass) (pattern : Fin 8) : State :=
  let before := s.alarm
  let r' := { r with
    refreshTimer := 0, cls := cls, pattern := pattern, sounding := r.sounding || cls == .general }
  let s := s.setAlarm ({ s.alarm with records := put s.alarm.records e (some r') }.restartGenerator e pattern)
  if r'.sounding ∧ (r.cls ≠ cls ∨ r.pattern ≠ pattern ∨ r.sounding = false) then s.recoverage before else s

/-- The shared record a REMOTE record could displace: of those of the lowest class, the latest in the start order
(R164). -/
def Alarm.displaceable (a : Alarm) : Option (Fin 8) :=
  (a.ranked (a.startOrder.filter (fun e => sharedEntries.contains e && (a.records[e]).isSome))).getLast?

/-- A REMOTE record is created, in a free shared entry or by displacement (R163, R164). -/
def State.startRemote (s : State) (origin : NodeAddr) (group : Fin 8) (cls : AlarmClass) (pattern : Fin 8) : State :=
  let r := newRecord (.remote origin group) cls group pattern none 4096 false
  match s.alarm.freeShared, s.alarm.displaceable with
  | some e, _ => s.startRecord e r
  | none, some e =>
    if s.alarm.rank e < cls.rank then (s.endRecord e alarmDisplaced).startRecord e r else s
  | none, none => s

/-- An accepted alert word reaches the alarm engine (R163). -/
def State.alertWordIn (s : State) (w : BitVec 26) : State :=
  let found := (s.alarm.remoteEntry (alertOrigin w) (alertGroup w)).bind
    (fun e => (s.alarm.records[e]).map (fun r => (e, r)))
  if alertKind w = 1 then
    match found with
    | some x => s.refresh x.1 x.2 (alertClass w) (alertPattern w)
    | none => s.startRemote (alertOrigin w) (alertGroup w) (alertClass w) (alertPattern w)
  else
    match found with
    | some x => s.endRecord x.1 alarmRemoteOff
    | none => s

/-- The word is one the alarm engine accepts (R20 steps 1 to 4). -/
def State.alertAccepted (s : State) (w : BitVec 26) : Bool :=
  alertCheckOk w && (alertKind w == 1 || alertKind w == 2) && alertOrigin w != 0 && alertOrigin w != s.ring.address

/-- The arrival of an alert word (R8, R20). -/
def alertWordArrival (w : BitVec 26) (s : State) : State :=
  match s.ring.rx with
  | .hunt => s
  | .suspect => s.putAlert w false
  | .locked =>
    if s.alertAccepted w then
      if (alertHop w).toNat ≤ 62 then (s.alertWordIn w).putAlert (alertNextHop w) false
      else (s.alertWordIn w).putAlert 0 true
    else s.putAlert 0 true

/-! ### Covered zone output (R167, R168) -/

/-- The generator sample a winning record sounds: its own generator's, or that of the first-ranked record (R166). -/
def Alarm.tone (a : Alarm) (samples : Vector Int 4) (e : Fin 8) : Int :=
  let of (e : Fin 8) : Option (Fin 4) := (indices 4).find? (fun i => (a.generators[i]).any (fun g => g.entry == e))
  match of e with
  | some i => samples[i]
  | none => ((a.winners.head?.bind of).map (fun i => samples[i])).getD 0

/-- The voice sample of a record. -/
def State.voice (s : State) (r : AlarmRec) : Int := (r.voiceSlot.map (fun t => orSilence (s.tap t))).getD 0

/-- The level L' of a record in a zone of alarm level L. -/
def alarmLevel (cls : AlarmClass) (level : Nat) : Int :=
  match cls with
  | .test => roundDiv 16384 ((level * 4096 : Nat) : Int)
  | _ => level

/-- The alarm formula (R167). -/
def alarmOutput (t : Int) (d : Nat) (v : Int) (level : Int) : Int :=
  saturate (roundDiv 268435456 ((t * (d : Int) + v * 16384) * level))

/-- The output sample of a covered zone. -/
def State.alarmSample (s : State) (gens : Vector Int 4) (z : Fin 24) (e : Fin 8) (r : AlarmRec) : Int :=
  alarmOutput (s.alarm.tone gens e) s.mix.duck[z] (s.voice r) (alarmLevel r.cls (s.mix.zoneLocal[z]).level)

/-- The output sample of a zone: the alarm formula while it is covered, the mix otherwise (R66). -/
def State.zoneSample (s : State) (players gens : Vector Int 4) (z : Fin 24) : Int :=
  match s.winner z with
  | some w => s.alarmSample gens z w.1 w.2
  | none => s.mixedSample players z

/-- The earliest SOUNDING GENERAL record in the start order, with its entry (R168). -/
def Alarm.earliestGeneral (a : Alarm) : Option (Fin 8 × AlarmRec) :=
  (a.startOrder.filterMap (fun e => (a.records[e]).map (fun r => (e, r)))).find?
    (fun x => x.2.sounding && x.2.cls == .general)

/-- The first zone of a group (R158). -/
def firstZone (zs : ZoneSet) : Option (Fin 24) := allZones.find? (hasZone zs)

/-- The NONE output, 0 while no GENERAL record sounds (R48, R168). -/
def State.noneSample (s : State) (gens : Vector Int 4) : Int :=
  match s.alarm.earliestGeneral with
  | some x =>
    match firstZone s.alarm.groups[x.2.group] with
    | some z => alarmOutput (s.alarm.tone gens x.1) s.mix.duck[z] (s.voice x.2) 16384
    | none => 0
  | none => 0

/-! ### Requests -/

def stepMode : Nat → Option StepMode
  | 0 => some .steady
  | 1 => some .sweep
  | 2 => some .silent
  | _ => none

/-- A SOUNDING record names a pattern (R152). -/
def Alarm.patternInUse (a : Alarm) (pattern : Fin 8) : Bool :=
  (indices 8).any (fun e => (a.records[e]).any (fun r => r.sounding && r.pattern == pattern))

/-- A step position of a pattern 1..7 becomes loaded (R152). -/
def Alarm.load (a : Alarm) (pattern : Fin 7) (i : Fin 16) (p : PatternStep) : Alarm :=
  { a with patterns := put a.patterns pattern (put a.patterns[pattern] i (some p)) }

def setPatternStep (ws : List Word16) (s : State) : Answer :=
  match ws with
  | [w0, duration, n1, n2, ampHi, ampLo] =>
    match codedIndex 1 7 (w0 >>> 8), stepMode (field w0 0 2) with
    | some p, some m =>
      if w0.getLsbD 3 ∨ 127 < ampHi.toNat then .refuse .outOfRange s
      else if s.alarm.patternInUse p.succ then .refuse .inUse s
      else
        .ok (s.setAlarm (s.alarm.load p (w0.extractLsb' 4 4).toFin
          { mode := m, duration := clampTo 1 1000 duration.toNat, n1 := n1.toNat, n2 := n2.toNat
            amplitude := wide ampHi ampLo, last := w0.getLsbD 2 }))
    | _, _ => .refuse .outOfRange s
  | _ => .refuse .badLength s

def setContact (ws : List Word16) (s : State) : Answer :=
  match ws with
  | [line, w1] =>
    match wordIndex 4 line, alarmClass (field w1 0 2) with
    | some k, some c =>
      if field w1 9 7 ≠ 0 then .refuse .outOfRange s
      else
        .ok (s.setContact k { s.alarm.contacts[k] with
          cls := c, group := (w1.extractLsb' 2 3).toFin, pattern := (w1.extractLsb' 5 3).toFin
          broadcast := w1.getLsbD 8 })
    | _, _ => .refuse .outOfRange s
  | _ => .refuse .badLength s

/-- The group's zone set is replaced; coverage is recomputed when a SOUNDING record names the group (R158). -/
def State.setGroupOf (s : State) (g : Fin 8) (zs : ZoneSet) : State :=
  let before := s.alarm
  let s := s.setAlarm { s.alarm with groups := put s.alarm.groups g zs }
  if (indices 8).any (fun e => (s.alarm.records[e]).any (fun r => r.sounding && r.group == g)) then s.recoverage before
  else s

def setGroup (ws : List Word16) (s : State) : Answer :=
  match ws with
  | [group, zlo, zhi] =>
    match wordIndex 8 group, zoneSetOf zlo zhi with
    | some g, some zs => if zs = 0 then .refuse .outOfRange s else .ok (s.setGroupOf g zs)
    | _, _ => .refuse .outOfRange s
  | _ => .refuse .badLength s

/-- The REQUEST record of an id. -/
def Alarm.requestEntry (a : Alarm) (id : BitVec 8) : Option (Fin 8) :=
  (indices 8).find? (fun e => (a.records[e]).any (fun r => r.origin == .request id))

/-- The voice factor word of ALARM START (R159); a record without a voice has 4,096 (9.3). -/
def voiceFactor (voice : Option (Fin 64)) (w : Word16) : Nat :=
  if voice.isNone then 4096 else if w.toNat = 65535 then 4096 else min 16384 w.toNat

def alarmStart (ws : List Word16) (s : State) : Answer :=
  match ws with
  | [id, cls, group, pattern, voice, broadcast, factor] =>
    match byteId id, alarmClass cls.toNat, wordIndex 8 group, wordIndex 8 pattern, optionalIndex 64 255 voice,
        flagWord broadcast with
    | some i, some c, some g, some p, some v, some b =>
      if (s.alarm.requestEntry i).isSome then .refuse .duplicate s
      else
        match s.alarm.freeShared with
        | none => .refuse .full s
        | some e => .ok (s.startRecord e (newRecord (.request i) c g p v (voiceFactor v factor) b))
    | _, _, _, _, _, _ => .refuse .outOfRange s
  | _ => .refuse .badLength s

def alarmStop (ws : List Word16) (s : State) : Answer :=
  match ws with
  | [id] =>
    match byteId id with
    | none => .refuse .outOfRange s
    | some i =>
      match s.alarm.requestEntry i with
      | none => .refuse .notFound s
      | some e => .ok (s.endRecord e alarmStopped)
  | _ => .refuse .badLength s

/-- A record becomes SILENCED (R161). -/
def State.silence (s : State) (e : Fin 8) (r : AlarmRec) : State :=
  (s.setAlarm { s.alarm with records := put s.alarm.records e (some { r with sounding := false }) }).recoverage s.alarm

def silenceAlarm (ws : List Word16) (s : State) : Answer :=
  match ws with
  | [entry] =>
    match wordIndex 8 entry with
    | none => .refuse .outOfRange s
    | some e =>
      match s.alarm.records[e] with
      | none => .refuse .notFound s
      | some r =>
        if r.cls = .general then .refuse .notAllowed s
        else if r.sounding = false then .ok s
        else .ok (s.silence e r)
  | _ => .refuse .badLength s

/-! ### Meanings -/

/-- ALERT_WORD_ARRIVAL (R20). -/
def execAlertWordArrival (w : BitVec 26) (s : State) : Host.Outcome State Fault Refusal :=
  .next (alertWordArrival w s)

/-- SET_PATTERN_STEP (R152). -/
def execSetPatternStep (address : NodeAddr) (low : BitVec 8) (s : State) : Host.Outcome State Fault Refusal :=
  .next (request 0x48 setPatternStep address low s)

/-- GENERATOR_STEP_END (R153). -/
def execGeneratorStepEnd (g : Fin 4) (s : State) : Host.Outcome State Fault Refusal := .next (generatorStepEnd g s)

/-- SET_CONTACT (R157). -/
def execSetContact (address : NodeAddr) (low : BitVec 8) (s : State) : Host.Outcome State Fault Refusal :=
  .next (request 0x49 setContact address low s)

/-- CONTACT_ACTIVATE (R156). -/
def execContactActivate (k : Fin 4) (s : State) : Host.Outcome State Fault Refusal := .next (contactActivate k s)

/-- CONTACT_CLEAR (R156). -/
def execContactClear (k : Fin 4) (s : State) : Host.Outcome State Fault Refusal := .next (contactClear k s)

/-- SET_GROUP (R158). -/
def execSetGroup (address : NodeAddr) (low : BitVec 8) (s : State) : Host.Outcome State Fault Refusal :=
  .next (request 0x4A setGroup address low s)

/-- ALARM_START (R159). -/
def execAlarmStart (address : NodeAddr) (low : BitVec 8) (s : State) : Host.Outcome State Fault Refusal :=
  .next (request 0x4B alarmStart address low s)

/-- ALARM_STOP (R160). -/
def execAlarmStop (address : NodeAddr) (low : BitVec 8) (s : State) : Host.Outcome State Fault Refusal :=
  .next (request 0x4C alarmStop address low s)

/-- SILENCE_ALARM (R161). -/
def execSilenceAlarm (address : NodeAddr) (low : BitVec 8) (s : State) : Host.Outcome State Fault Refusal :=
  .next (request 0x4D silenceAlarm address low s)

/-- BROADCAST_REFRESH (R162). -/
def execBroadcastRefresh (e : Fin 8) (s : State) : Host.Outcome State Fault Refusal := .next (broadcastRefresh e s)

/-- NOT_CONFIRMED (R163). -/
def execNotConfirmed (e : Fin 8) (s : State) : Host.Outcome State Fault Refusal := .next (notConfirmed e s)

end Sys2Proof.Machine
end

