-- ==== Sys2Proof/Machine/Lines.lean ====
section
/-! DEFINITION. The line supervisor (chapter 10): the scanner, the windows, the fault records, and its requests. -/

namespace Sys2Proof.Machine

/-! ### The scanner -/

/-- The channel after a channel in the scan sequence: the next lower one, or t after channel 0 (R171). -/
def scanAfter (top c : Fin 32) : Fin 32 := if c.val = 0 then top else ⟨c.val - 1, by omega⟩

/-- The first `n` channels of the scan sequence from a position onward (R171). -/
def scanOrder (top : Fin 32) : Nat → Fin 32 → List (Fin 32)
  | 0, _ => []
  | n + 1, c => c :: scanOrder top n (scanAfter top c)

/-- A channel the scanner can take: role ZONE, window enabled (R171). -/
def State.measurable (s : State) (c : Fin 32) : Bool :=
  (match s.ports.channels[c] with
    | .zone _ => true
    | _ => false) && (s.lines.windows[c]).enabled

/-- The scanner chooses a channel and begins its step, or enters SEARCHING (R171, R172). -/
def Lines.choose (l : Lines) (measurable : Fin 32 → Bool) : Lines :=
  match (scanOrder l.settings.top (l.settings.top.val + 1) l.position).find? measurable with
  | some c =>
    { l with
      scanner := .stepping c, position := scanAfter l.settings.top c, stepTimer := 0, held := none
      discard := false }
  | none => { l with scanner := .searching }

/-- The choice at the start of a cycle period, when one falls in it (R170, R171, R173). -/
def State.scanChoose (s : State) : State :=
  match s.lines.scanner with
  | .choosing => s.setLines (s.lines.choose s.measurable)
  | .searching => s.setLines (s.lines.choose s.measurable)
  | _ => s

/-- One cycle period of the step or of the rest (R172, R173). -/
def Lines.tick (l : Lines) : Lines :=
  match l.scanner with
  | .stepping _ => { l with stepTimer := l.stepTimer + 1 }
  | .resting => { l with restTimer := l.restTimer + 1 }
  | _ => l

/-- The channel named for measurement (10.1). -/
def Lines.named (l : Lines) : Option (Fin 32) :=
  match l.scanner with
  | .stepping c => some c
  | _ => none

/-- New scan settings take effect: STOPPED with B of 0, else the sequence starts at t in the next period (R170). DESIGN
CHOICE (log entry 43): with B of 0 too the position becomes t and the burst count 0; R170 sets them only otherwise.
DESIGN CHOICE (log entry 55): the step timer, the rest timer and the held reading keep their last values. -/
def Lines.apply (l : Lines) (c : ScanSettings) : Lines :=
  { l with
    settings := c
    pendingSet := none
    burstCount := 0
    position := c.top
    scanner := if c.burst = 0 then .stopped else .choosing }

/-- A valid reading of the step's channel replaces the held reading (R172). -/
def Lines.reading (l : Lines) (rs : Vector LineReading 32) : Lines :=
  match l.scanner with
  | .stepping c => if (rs[c]).valid then { l with held := some (rs[c]).value.toNat } else l
  | _ => l

/-! ### Classification and fault records -/

/-- The result of a step: none is OK, a fault kind is out of window (R175). -/
def classify (w : Window) (held : Option Nat) : Option FaultKind :=
  match held with
  | none => some .noReply
  | some r =>
    if r = 4095 then some .opened
    else if r < w.low then some .short
    else if w.high < r then some .opened
    else none

/-- The kind codes of LINE FAULT and READ LINES (2.8.4, R178). -/
def FaultKind.code : FaultKind → Nat
  | .short => 1
  | .opened => 2
  | .noReply => 3

/-- What a fault record posts (R176). -/
inductive LineEvent where
  | faulted (kind : FaultKind)
  | restored
deriving DecidableEq, Repr

/-- The fault record after a step's result, and the event it posts (R176). -/
def FaultRec.after (f : FaultRec) (result : Option FaultKind) : FaultRec × Option LineEvent :=
  match f, result with
  | .ok, none => (.ok, none)
  | .ok, some k => (.suspect k, none)
  | .suspect _, none => (.ok, none)
  | .suspect k, some k' => if k = k' then (.fault k 0, some (.faulted k)) else (.suspect k', none)
  | .fault k r, none => if r < 2 then (.fault k (r + 1), none) else (.ok, some .restored)
  | .fault k _, some k' => if k = k' then (.fault k 0, none) else (.fault k' 0, some (.faulted k'))

/-- The event of a fault record's change is posted with the channel as subject (R176). -/
def State.postLine (s : State) (c : Fin 32) : Option LineEvent → State
  | none => s
  | some (.faulted k) => s.post .lineFault (BitVec.ofNat 16 c.val) (BitVec.ofNat 4 k.code)
  | some .restored => s.post .lineRestored (BitVec.ofNat 16 c.val) 0

/-- The channel's fault record is in FAULT(SHORT): the channel is muted (R177). -/
def State.muted (s : State) (c : Fin 32) : Bool :=
  match s.lines.faults[c] with
  | .fault .short _ => true
  | _ => false

/-- The result of the ended step of a channel reaches its fault record, unless it is discarded (R174 to R176). -/
def State.classifyStep (s : State) (c : Fin 32) : State :=
  if s.lines.discard then s
  else
    let change := (s.lines.faults[c]).after (classify s.lines.windows[c] s.lines.held)
    (s.setLines { s.lines with faults := put s.lines.faults c change.1 }).postLine c change.2

/-- The scanner continues by its settings after a step (R173). DESIGN CHOICE (log entry 55): the step timer and the held
reading keep their last values until the next step begins, and the rest timer until the next rest. -/
def Lines.continue (l : Lines) : Lines :=
  let n := l.burstCount + 1
  match l.pendingSet with
  | some c => l.apply c
  | none =>
    if n < l.settings.burst then { l with burstCount := n, scanner := .choosing }
    else if 0 < l.settings.rest then { l with burstCount := 0, restTimer := 0, scanner := .resting }
    else { l with burstCount := 0, scanner := .choosing }

/-- The end of a step after its 4,800 periods (R172). -/
def scanStepEnd (s : State) : State :=
  match s.lines.scanner with
  | .stepping c =>
    if 4800 ≤ s.lines.stepTimer then
      let s := s.classifyStep c
      s.setLines s.lines.continue
    else s
  | _ => s

/-- The end of a rest after its R × 48,000 periods (R173). -/
def scanRestEnd (s : State) : State :=
  match s.lines.scanner with
  | .resting =>
    if s.lines.settings.rest * Config.second ≤ s.lines.restTimer then
      s.setLines { s.lines with scanner := .choosing }
    else s
  | _ => s

/-- The line supervisor's part of a soft reset (R179); the timers and the held reading keep their last values (DESIGN
CHOICE, log entry 55). -/
def Lines.softReset (l : Lines) : Lines := l.apply (l.pendingSet.getD l.settings)

/-! ### Requests -/

def setScan (ws : List Word16) (s : State) : Answer :=
  match ws with
  | [t, b, r] =>
    match wordIndex 32 t with
    | none => .refuse .outOfRange s
    | some top =>
      if 255 < b.toNat then .refuse .outOfRange s
      else
        let c : ScanSettings := { top := top, burst := b.toNat, rest := min 600 r.toNat }
        match s.lines.scanner with
        | .stepping _ => .ok (s.setLines { s.lines with pendingSet := some c })
        | _ => .ok (s.setLines (s.lines.apply c))
  | _ => .refuse .badLength s

/-- A fault record in FAULT posts LINE RESTORED when its window is disabled (R174). -/
def FaultRec.release : FaultRec → Option LineEvent
  | .fault _ _ => some .restored
  | _ => none

/-- The window of a channel is replaced; a disabled channel leaves supervision (R174). DESIGN CHOICE (log entry 42): a
channel disabled and enabled again within one step of it keeps the discard of that step's result; R174 says both that
the result is discarded and that the new bounds classify every step that ends from then on. DESIGN CHOICE (log entry
51): a SET WINDOW with enabled set, taken after the end of a step in the same period, leaves the result that the window
of the step's end has given (R175), though the step ends in the period of execution (R174). -/
def State.setWindowOf (s : State) (c : Fin 32) (w : Window) : State :=
  if w.enabled then s.setLines { s.lines with windows := put s.lines.windows c w }
  else
    (s.setLines { s.lines with
      windows := put s.lines.windows c w
      faults := put s.lines.faults c .ok
      discard := s.lines.discard || s.lines.named == some c }).postLine c (s.lines.faults[c]).release

def setWindow (ws : List Word16) (s : State) : Answer :=
  match ws with
  | [ch, en, lo, hi] =>
    match wordIndex 32 ch, flagWord en with
    | some c, some e =>
      if 4095 < lo.toNat ∨ 4095 < hi.toNat ∨ hi.toNat < lo.toNat then .refuse .outOfRange s
      else .ok (s.setWindowOf c { enabled := e, low := lo.toNat, high := hi.toNat })
    | _, _ => .refuse .outOfRange s
  | _ => .refuse .badLength s

/-- The byte of a channel in the reply of READ LINES (R178). A channel is named for measurement in a period when the
output frame of that period carries its measure-request flag (R50, R172); so too after the end of its step in that
period (DEDUCED, log entry 45). -/
def State.lineByte (s : State) (c : Fin 32) : Nat :=
  (match s.lines.faults[c] with
    | .ok => 0
    | .suspect k => 1 + 4 * k.code
    | .fault k r => 2 + 4 * k.code + 16 * r)
  + (if (s.lines.windows[c]).enabled then 64 else 0)
  + (if s.ports.frameOut.measure.getLsbD c.val then 128 else 0)

def readLines (ws : List Word16) (s : State) : Answer :=
  match ws with
  | [] =>
    .report s ((indices 16).map (fun w =>
      BitVec.ofNat 16 (s.lineByte ⟨2 * w.val, by omega⟩ + 256 * s.lineByte ⟨2 * w.val + 1, by omega⟩)))
  | _ => .refuse .badLength s

/-! ### Meanings -/

/-- RETURN_LANE_FRAME (R50). -/
def execReturnLaneFrame (rs : Vector LineReading 32) (s : State) : Host.Outcome State Fault Refusal :=
  .next (s.setLines (s.lines.reading rs))

/-- SET_WINDOW (R174). -/
def execSetWindow (address : NodeAddr) (low : BitVec 8) (s : State) : Host.Outcome State Fault Refusal :=
  .next (request 0x50 setWindow address low s)

/-- SET_SCAN (R170). -/
def execSetScan (address : NodeAddr) (low : BitVec 8) (s : State) : Host.Outcome State Fault Refusal :=
  .next (request 0x51 setScan address low s)

/-- SCAN_STEP_END (R172). -/
def execScanStepEnd (s : State) : Host.Outcome State Fault Refusal := .next (scanStepEnd s)

/-- SCAN_REST_END (R173). -/
def execScanRestEnd (s : State) : Host.Outcome State Fault Refusal := .next (scanRestEnd s)

/-- READ_LINES (R178). -/
def execReadLines (address : NodeAddr) (low : BitVec 8) (s : State) : Host.Outcome State Fault Refusal :=
  .next (request 0x52 readLines address low s)

end Sys2Proof.Machine
end

