-- ==== Sys2Proof/Machine/Tracker.lean ====
section
/-! DEFINITION. The ambient tracker (chapter 11): settings, the measured block, settling, the freeze, the applied
factor, and its requests. -/

namespace Sys2Proof.Machine

/-! ### Blocks -/

/-- A new block begins with the next computation: position 1, histograms discarded, freeze seen cleared (R180,
R182, R187). -/
def ZoneTracker.restart (t : ZoneTracker) : ZoneTracker :=
  { t with
    position := 1, hist0 := Vector.replicate 16 0, hist1 := Vector.replicate 16 0, freezeSeen := false
    blockDone := false }

/-- Local ports hands the tracker a zone whose sense inputs have changed (R47, R182). -/
def State.senseChanged (s : State) (z : Fin 24) : State :=
  s.setTrackers (put s.trackers z (s.trackers[z]).restart)

/-- The input that holds a sense position of a zone (R47). -/
def State.senseInput (s : State) (z : Fin 24) (position : Fin 2) : Option (Fin 32) :=
  (indices 32).find? (fun i => (s.ports.inputs[i]).role == .sense z position)

/-- How many sense inputs a zone has. -/
def State.senseCount (s : State) (z : Fin 24) : Nat :=
  (if (s.senseInput z 0).isSome then 1 else 0) + (if (s.senseInput z 1).isSome then 1 else 0)

/-- The bin of a sample: the bit length of its magnitude, less 8, limited to 0..15 (R183). -/
def sampleBin (x : Int) : Fin 16 :=
  let m := x.natAbs
  let bits := if m = 0 then 0 else Nat.log2 m + 1
  ⟨min 15 (bits - 8), by omega⟩

/-- A histogram with one more count in the bin of a sense input's sample. -/
def countBin (samples : Vector Int 32) (h : Vector Nat 16) : Option (Fin 32) → Vector Nat 16
  | none => h
  | some i => put h (sampleBin samples[i]) (h[sampleBin samples[i]] + 1)

/-- One computation of a zone's block (R182, R183, R186). A zone with no sense input runs no block. -/
def ZoneTracker.measure (t : ZoneTracker) (samples : Vector Int 32) (in0 in1 : Option (Fin 32)) (freeze : Bool) :
    ZoneTracker :=
  if in0.isSome || in1.isSome then
    { t with
      hist0 := countBin samples t.hist0 in0
      hist1 := countBin samples t.hist1 in1
      freezeSeen := t.freezeSeen || freeze
      position := if t.position < 480 then t.position + 1 else t.position
      blockDone := t.blockDone || decide (480 ≤ t.position) }
  else t

/-- The noise bin: the lowest bin at which the counts from bin 0 reach ceil(480 × p / 100) (R183). -/
def noiseBin (h : Vector Nat 16) (percentile : Nat) : Nat :=
  let threshold := (480 * percentile + 99) / 100
  ((List.range 16).find? (fun b => threshold ≤ (h.toList.take (b + 1)).sum)).getD 15

/-- The zone's noise bin from those of its two sense inputs (R184). -/
def combineBins (n0 n1 : Nat) : Nat :=
  if max n0 n1 - min n0 n1 ≤ 1 then (n0 + n1) / 2 else min n0 n1

/-- The target step (R184). -/
def targetStep (c : TrackerSettings) (n : Nat) : Nat := clampTo c.kmin c.kmax ((n - c.quiet) * c.slope)

/-- The evaluation of a block. With one sense input, at either position, its noise bin is n0 and n, and n1 is 0
(R184, R188; log entry 17). -/
def ZoneTracker.evaluate (t : ZoneTracker) (in0 in1 : Bool) : Evaluation :=
  let b0 := noiseBin t.hist0 t.settings.percentile
  let b1 := noiseBin t.hist1 t.settings.percentile
  let n0 := if in0 then b0 else b1
  let n1 := if in0 && in1 then b1 else 0
  let n := if in0 && in1 then combineBins b0 b1 else n0
  { n0 := n0, n1 := n1, n := n, kdes := targetStep t.settings n }

/-- The step k and the two counts settle toward a target step (R185). -/
def ZoneTracker.settle (t : ZoneTracker) (kdes : Nat) : ZoneTracker :=
  if t.k < kdes then
    if t.settings.rise ≤ t.up + 1 then { t with k := t.k + 1, up := 0, down := 0 }
    else { t with up := t.up + 1, down := 0 }
  else if kdes < t.k then
    if t.settings.fall ≤ t.down + 1 then { t with k := t.k - 1, up := 0, down := 0 }
    else { t with up := 0, down := t.down + 1 }
  else { t with up := 0, down := 0 }

/-- The end of a block: frozen while freeze was seen or the tail runs, evaluated otherwise; the next block begins
(R182, R186). -/
def ZoneTracker.blockEnd (t : ZoneTracker) (in0 in1 : Bool) : ZoneTracker :=
  let next :=
    if t.freezeSeen then { t with freezeTail := 20 }
    else if 0 < t.freezeTail then { t with freezeTail := t.freezeTail - 1 }
    else
      let e := t.evaluate in0 in1
      { t.settle e.kdes with last := some e }
  next.restart

/-- The end of a zone's block, when it is due (R182). -/
def trackerBlockEnd (z : Fin 24) (s : State) : State :=
  let t := s.trackers[z]
  if t.blockDone then
    s.setTrackers (put s.trackers z (t.blockEnd (s.senseInput z 0).isSome (s.senseInput z 1).isSome))
  else s

/-! ### The applied factor -/

/-- Ce takes one step toward the factor of the present k (R181). -/
def glide (ce factor : Nat) : Nat :=
  if ce < factor then min factor (ce + 16) else if factor < ce then max factor (ce - 16) else ce

/-- The glide of every zone's applied factor in one cycle period (R181). -/
def State.glideAll (s : State) : State :=
  s.setTrackers (mapTable (fun _ t => { t with ce := glide t.ce (Config.compensation t.k) }) s.trackers)

/-- One computation of every zone's block (R182). -/
def State.measureAll (s : State) : State :=
  s.setTrackers (mapTable
    (fun z t => t.measure s.ports.samples (s.senseInput z 0) (s.senseInput z 1) (s.audibleIn z || s.covered z))
    s.trackers)

/-! ### Requests -/

/-- The tracking state of a zone after RESET TRACKER and after soft reset (R187, R189). -/
def ZoneTracker.reset (t : ZoneTracker) : ZoneTracker :=
  { t with k := t.settings.seed, up := 0, down := 0, freezeTail := 0, last := none }.restart

/-- The settings of SET TRACKER after the clamps (R180). -/
def trackerSettings (p q slope kmin kmax rise fall seed : Nat) : TrackerSettings :=
  let kmax := min 8 kmax
  let kmin := min kmax (min 8 kmin)
  { percentile := p, quiet := q, slope := clampTo 1 4 slope, kmin := kmin, kmax := kmax
    rise := clampTo 1 255 rise, fall := clampTo 1 255 fall, seed := clampTo kmin kmax seed }

/-- The tracking state of a zone after SET TRACKER (R180). -/
def ZoneTracker.configure (t : ZoneTracker) (c : TrackerSettings) : ZoneTracker :=
  { t with settings := c, k := clampTo c.kmin c.kmax t.k, up := 0, down := 0 }.restart

def setTracker (ws : List Word16) (s : State) : Answer :=
  match ws with
  | [zone, p, q, slope, kmin, kmax, rise, fall, seed] =>
    match wordIndex 24 zone with
    | none => .refuse .outOfRange s
    | some z =>
      if p.toNat = 0 ∨ 99 < p.toNat ∨ 15 < q.toNat then .refuse .outOfRange s
      else
        let c := trackerSettings p.toNat q.toNat slope.toNat kmin.toNat kmax.toNat rise.toNat fall.toNat seed.toNat
        .ok (s.setTrackers (put s.trackers z ((s.trackers[z]).configure c)))
  | _ => .refuse .badLength s

def resetTracker (ws : List Word16) (s : State) : Answer :=
  match ws with
  | [zone] =>
    match wordIndex 24 zone with
    | none => .refuse .outOfRange s
    | some z => .ok (s.setTrackers (put s.trackers z (s.trackers[z]).reset))
  | _ => .refuse .badLength s

/-- The reply words of READ TRACKER (R188). -/
def trackerWords (t : ZoneTracker) (senses : Nat) : List Word16 :=
  let e := t.last.getD { n0 := 0, n1 := 0, n := 0, kdes := 0 }
  [ BitVec.ofNat 16
      (t.k + 16 * t.settings.kmin + 256 * t.settings.kmax + (if t.freezeSeen then 4096 else 0) + 8192 * senses),
    BitVec.ofNat 16 t.ce,
    BitVec.ofNat 16 (e.n0 + 16 * e.n1 + 256 * e.n + 4096 * e.kdes),
    BitVec.ofNat 16 (t.freezeTail + 256 * (if 0 < t.up then t.up else t.down)) ]

def readTracker (ws : List Word16) (s : State) : Answer :=
  match ws with
  | [zone] =>
    match wordIndex 24 zone with
    | none => .refuse .outOfRange s
    | some z => .report s (trackerWords s.trackers[z] (s.senseCount z))
  | _ => .refuse .badLength s

/-! ### Meanings -/

/-- SET_TRACKER (R180). -/
def execSetTracker (address : NodeAddr) (low : BitVec 8) (s : State) : Host.Outcome State Fault Refusal :=
  .next (request 0x58 setTracker address low s)

/-- RESET_TRACKER (R187). -/
def execResetTracker (address : NodeAddr) (low : BitVec 8) (s : State) : Host.Outcome State Fault Refusal :=
  .next (request 0x59 resetTracker address low s)

/-- READ_TRACKER (R188). -/
def execReadTracker (address : NodeAddr) (low : BitVec 8) (s : State) : Host.Outcome State Fault Refusal :=
  .next (request 0x5A readTracker address low s)

/-- TRACKER_BLOCK_END (R182). -/
def execTrackerBlockEnd (z : Fin 24) (s : State) : Host.Outcome State Fault Refusal :=
  .next (trackerBlockEnd z s)

end Sys2Proof.Machine
end

