-- ==== Sys2Proof/Machine/Ports.lean ====
section
/-! DEFINITION. The local ports (chapter 3): formats, the input stage, input settings and sense positions, the output
stage, output channels, and their requests. -/

namespace Sys2Proof.Machine

/-! ### The input stage -/

/-- A received word as a signed value (R44). -/
def PortFormat.read (f : PortFormat) (w : RawSample) : Int :=
  match f with
  | .twos => w.toInt
  | .offset => (w.toNat : Int) - 8388608

/-- A sample as the word sent (R44). -/
def PortFormat.write (f : PortFormat) (v : Int) : RawSample :=
  match f with
  | .twos => BitVec.ofInt 24 v
  | .offset => BitVec.ofInt 24 (v + 8388608)

/-- The empty marker is replaced by the lowest sample (R45 step 2). -/
def noMarker (v : Int) : Int := if v = Config.emptyMarker then -Config.sampleMax else v

/-- The input sample: converted, the marker substituted, trimmed, saturated (R45). -/
def inputStage (f : PortFormat) (trim : Fin 4) (w : RawSample) : Int :=
  saturate (noMarker (f.read w) * ((2 ^ trim.val : Nat) : Int))

/-- The input samples of a computation, from the input frame of its period (R45). -/
def State.takeInputs (s : State) (frame : Vector RawSample 32) : State :=
  s.setPorts { s.ports with
    samples := mapTable (fun i r => inputStage s.ports.inFormat r.trim frame[i]) s.ports.inputs }

/-! ### The output stage -/

/-- The sample an output channel selects from a computation, 0 while it is muted (R48). -/
def State.channelSample (s : State) (c : Fin 32) (k : Computation) : Int :=
  if s.muted c then 0
  else
    match s.ports.channels[c] with
    | .zone z => k.zones[z]
    | .station p => k.speakers[p]
    | .none => k.noneOut

/-- The measure-request flags: that of the channel named by the line supervisor alone (R50). -/
def measureFlags : Option (Fin 32) → BitVec 32
  | none => 0
  | some c => BitVec.twoPow 32 c.val

/-- The output frame sent in a period carries the computation made two periods before (R43, R48). -/
def State.sendFrame (s : State) (k : Computation) : State :=
  s.setPorts { s.ports with
    frameOut :=
      { words := Vector.ofFn (fun c => s.ports.outFormat.write (s.channelSample c k))
        measure := measureFlags s.lines.named } }

/-! ### Requests -/

def setPort (ws : List Word16) (s : State) : Answer :=
  match ws with
  | [port, format] =>
    match flagWord port, flagWord format with
    | some p, some f =>
      let f := if f then PortFormat.offset else PortFormat.twos
      .ok (s.setPorts (if p then { s.ports with outFormat := f } else { s.ports with inFormat := f }))
    | _, _ => .refuse .outOfRange s
  | _ => .refuse .badLength s

/-- Another input holds a sense position (R46). -/
def State.senseTaken (s : State) (i : Fin 32) : InputRole → Bool
  | .line => false
  | .sense z p => (indices 32).any (fun j => j != i && (s.ports.inputs[j]).role == .sense z p)

/-- The zones whose sense inputs a change of role changes, each once (R47). -/
def changedSenses (old new : InputRole) : List (Fin 24) :=
  if old = new then []
  else
    match old, new with
    | .line, .line => []
    | .line, .sense z _ => [z]
    | .sense z _, .line => [z]
    | .sense z _, .sense z' _ => if z = z' then [z] else [z, z']

def setInput (ws : List Word16) (s : State) : Answer :=
  match ws with
  | [input, trim, role] =>
    match wordIndex 32 input, wordIndex 4 trim, inputRole role with
    | some i, some t, some r =>
      if s.senseTaken i r then .refuse .conflict s
      else
        let old := (s.ports.inputs[i]).role
        let s := s.setPorts { s.ports with inputs := put s.ports.inputs i { trim := t, role := r } }
        .ok ((changedSenses old r).foldl State.senseChanged s)
    | _, _, _ => .refuse .outOfRange s
  | _ => .refuse .badLength s

/-- The channel is the speaker output channel of a station table entry, and the new role is not STATION of that
entry's port (R49). -/
def State.channelInUse (s : State) (c : Fin 32) (r : ChannelRole) : Bool :=
  (indices 32).any (fun p => (s.icom.table[p]).any (fun e => e.speaker == c) && r != .station p)

def setChannel (ws : List Word16) (s : State) : Answer :=
  match ws with
  | [channel, role] =>
    match wordIndex 32 channel, channelRole role with
    | some c, some r =>
      if s.channelInUse c r then .refuse .inUse s
      else .ok (s.setPorts { s.ports with channels := put s.ports.channels c r })
    | _, _ => .refuse .outOfRange s
  | _ => .refuse .badLength s

/-! ### Meanings -/

/-- SET_PORT (R44). -/
def execSetPort (address : NodeAddr) (low : BitVec 8) (s : State) : Host.Outcome State Fault Refusal :=
  .next (request 0x18 setPort address low s)

/-- SET_INPUT (R46). -/
def execSetInput (address : NodeAddr) (low : BitVec 8) (s : State) : Host.Outcome State Fault Refusal :=
  .next (request 0x19 setInput address low s)

/-- SET_CHANNEL (R49). -/
def execSetChannel (address : NodeAddr) (low : BitVec 8) (s : State) : Host.Outcome State Fault Refusal :=
  .next (request 0x1A setChannel address low s)

end Sys2Proof.Machine
end

