-- ==== Sys2Proof/Machine/Control.lean ====
section
/-! DEFINITION. The control interface (chapter 2): the control words that are no requests, and the requests that act on
the node as a whole: ENROLL, RELEASE ALL, IDENTIFY, READ EVENTS, RESET NODE and SET NODE. -/

namespace Sys2Proof.Machine

/-! ### Control words -/

/-- A word of an address belongs to a transaction the node may take part in, and is collected (R24). -/
def State.collects (s : State) (address : NodeAddr) : Bool := address == 0 || address == s.ring.address

/-- A parameter word joins the request buffer, or is dropped and marks it TOO LONG (R27). -/
def RequestBuffer.append (b : RequestBuffer) (data : Word16) : RequestBuffer :=
  if b.words.length < 16 then { b with words := b.words ++ [data] } else { b with tooLong := true }

/-- A PARAM word (R24, R27, R32). -/
def paramWord (address : NodeAddr) (data : Word16) (s : State) : State :=
  if s.heard then
    if address ≠ 0 ∧ address = s.ring.address ∧ s.ctl.reply.isSome then
      s.putControl (s.faultWord address faultOverlap)
    else
      let s := s.putControl (controlWord .param address data)
      if s.collects address then s.setCtl { s.ctl with buffer := s.ctl.buffer.append data } else s
  else s.passControl (controlWord .param address data)

/-- An ECHO word is forwarded and clears the request buffer (R24, R28). -/
def echoWord (address : NodeAddr) (payload : BitVec 16) (s : State) : State :=
  if s.heard then (s.putControl (controlWord .echo address payload)).clearBuffer
  else s.passControl (controlWord .echo address payload)

/-- The condition under which damage spoils the request buffer (R25, R26). -/
def State.spoils (s : State) (address : NodeAddr) : Bool := s.collects address || !s.ctl.buffer.words.isEmpty

/-- A FAULT word is forwarded; FAULT CHECK may spoil the request buffer (R26). -/
def faultWordIn (address : NodeAddr) (payload : BitVec 16) (s : State) : State :=
  if s.heard then
    let s := s.putControl (controlWord .fault address payload)
    if payload.extractLsb' 8 8 = faultCheck ∧ s.spoils address = true then s.spoilBuffer else s
  else s.passControl (controlWord .fault address payload)

/-- A bad word is replaced by FAULT CHECK and may spoil the request buffer (R25). A word that is not bad is none of
this rule. -/
def badControlWord (w : BitVec 32) (s : State) : State :=
  if badWord w then
    if s.heard then
      let s := s.putControl (s.faultWord (wordAddress w) faultCheck)
      if s.spoils (wordAddress w) then s.spoilBuffer else s
    else s.passControl w
  else s

/-- The next word of a pending reply, and what is left of the reply (R31). -/
def State.replyWord (s : State) (r : Reply) : BitVec 32 × Option Reply :=
  match r.words with
  | w :: rest => (controlWord .reply s.ring.address w, some { r with words := rest })
  | [] => (controlWord .echo s.ring.address (echoPayload r.code r.status (!s.ctl.events.isEmpty)), none)

/-- An IDLE word arrives: a pending reply takes its slot, otherwise it is forwarded (R24, R31). -/
def idleWord (address : NodeAddr) (payload : BitVec 16) (s : State) : State :=
  if s.heard then
    match s.ctl.reply with
    | some r =>
      let next := s.replyWord r
      (s.putControl next.1).setCtl { s.ctl with reply := next.2 }
    | none => s.putControl (controlWord .idle address payload)
  else s.passControl (controlWord .idle address payload)

/-! ### ENROLL and RELEASE ALL -/

def identifyOwner (ws : List Word16) (s : State) : Answer :=
  match ws with
  | [] => .report s Config.identifyWords
  | _ => .refuse .badLength s

/-- A request that is executed only as a universal CLOSE, arriving as an own CLOSE (R18, R19). -/
def ownRefused (words : Nat) (ws : List Word16) (s : State) : Answer :=
  if ws.length = words then .refuse .notAllowed s else .refuse .badLength s

/-- ENROLL at an UNNAMED node with no pending reply (R18). -/
def enrollOwner (ws : List Word16) (s : State) : Answer :=
  match ws with
  | [a] =>
    if 1 ≤ a.toNat ∧ a.toNat ≤ 63 then
      .report (s.setRing { s.ring with address := a.setWidth 6 }) Config.identifyWords
    else .refuse .outOfRange s
  | _ => .refuse .badLength s

/-- A universal ENROLL (R18, R34). -/
def universalEnroll (low : BitVec 8) (s : State) : State :=
  if s.ring.address ≠ 0 ∨ s.ctl.reply.isSome = true then s.forwardClose 0 0x01 low
  else State.consume 0x01 (examine enrollOwner s)

/-- RELEASE ALL: the node becomes UNNAMED and its trunk calls end RELEASED (R19). -/
def State.release (s : State) : State :=
  (s.setRing { s.ring with address := 0 }).endCalls Call.trunk callReleased

def releaseOwner (ws : List Word16) (s : State) : Answer :=
  match ws with
  | [] => .ok s.release
  | _ => .refuse .badLength s

/-! ### READ EVENTS (R36) -/

def readEvents (ws : List Word16) (s : State) : Answer :=
  match ws with
  | [] =>
    let taken := s.ctl.events.take 7
    let left := s.ctl.events.drop 7 ++ s.ctl.catchRec.toList
    .report (s.setCtl { s.ctl with events := left, catchRec := none, overflow := false })
      (countWord taken.length left.length s.ctl.overflow :: taken.flatMap EventRec.replyWords)
  | _ => .refuse .badLength s

/-! ### SET NODE (R38) -/

/-- The settings of a SET NODE of this period apply from the next cycle on (R38). -/
def State.applySettings (s : State) : State :=
  match s.ctl.incoming with
  | some x => s.setCtl { s.ctl with settings := x, incoming := none }
  | none => s

def setNode (ws : List Word16) (s : State) : Answer :=
  match ws with
  | [mode, emergency, ringTimeout, holdLimit, callGain] =>
    match flagWord mode with
    | none => .refuse .outOfRange s
    | some m =>
      if 9999 < emergency.toNat then .refuse .outOfRange s
      else
        .ok (s.setCtl { s.ctl with
          incoming := some
            { writeMode := if m then .staged else .direct, emergency := emergency.setWidth 14
              ringTimeout := clampTo 1 120 ringTimeout.toNat, holdLimit := clampTo 10 600 holdLimit.toNat
              callGain := callGain.toNat } })
  | _ => .refuse .badLength s

/-! ### RESET NODE (R39) -/

/-- The mix engine's part (R69). -/
def State.mixReset (s : State) : State := s.setMix { s.mix with duck := Vector.replicate 24 16384 }

/-- The clip engine's part (R99, R105). -/
def State.clipReset (s : State) : State := if s.clips.capture.phase = .idle then s else s.dropCapture

/-- The page scheduler's part: every record ends with cause RESET (R128). -/
def State.pagesReset (s : State) : State := s.pageIds.foldl (fun s id => s.removePage id 6) s

/-- The ambient tracker's part (R189). -/
def State.trackersReset (s : State) : State :=
  s.setTrackers (mapTable (fun _ (t : ZoneTracker) => t.reset) s.trackers)

/-- Every block's part of a soft reset. -/
def State.blocksReset (s : State) : State :=
  let s := s.takeReset.mixReset.clipReset.pagesReset
  let s := (s.endCalls (fun _ => true) callReset).icomReset
  (s.setLines s.lines.softReset).trackersReset

/-- The subject of NODE RESET: the pages and the calls the reset has ended. -/
def resetSubject (pages calls : Nat) : Word16 := BitVec.ofNat 16 (256 * pages + calls)

/-- The soft reset: the blocks' parts, then the event list emptied and NODE RESET posted (R39). -/
def State.softReset (s : State) : State :=
  let r := s.blocksReset
  (r.setCtl { r.ctl with events := [], catchRec := none, overflow := false }).post .nodeReset
    (resetSubject s.pages.queue.length s.icom.calls.length) 0

def resetNode (ws : List Word16) (s : State) : Answer :=
  match ws with
  | [] => .ok s.softReset
  | _ => .refuse .badLength s

/-! ### Meanings -/

/-- PARAM_WORD (R27). -/
def execParamWord (address : NodeAddr) (data : Word16) (s : State) : Host.Outcome State Fault Refusal :=
  .next (paramWord address data s)

/-- ECHO_WORD (R28). -/
def execEchoWord (address : NodeAddr) (payload : BitVec 16) (s : State) : Host.Outcome State Fault Refusal :=
  .next (echoWord address payload s)

/-- FAULT_WORD (R26). -/
def execFaultWord (address : NodeAddr) (payload : BitVec 16) (s : State) : Host.Outcome State Fault Refusal :=
  .next (faultWordIn address payload s)

/-- BAD_CONTROL_WORD (R25). -/
def execBadControlWord (w : BitVec 32) (s : State) : Host.Outcome State Fault Refusal := .next (badControlWord w s)

/-- SEND_REPLY_WORD (R31). -/
def execSendReplyWord (address : NodeAddr) (payload : BitVec 16) (s : State) : Host.Outcome State Fault Refusal :=
  .next (idleWord address payload s)

/-- ENROLL (R18). -/
def execEnroll (address : NodeAddr) (low : BitVec 8) (s : State) : Host.Outcome State Fault Refusal :=
  .next (closeWord (universalEnroll low) (ownRefused 1) 0x01 address low s)

/-- RELEASE_ALL (R19). -/
def execReleaseAll (address : NodeAddr) (low : BitVec 8) (s : State) : Host.Outcome State Fault Refusal :=
  .next (closeWord (universalRequest 0x02 releaseOwner low) (ownRefused 0) 0x02 address low s)

/-- IDENTIFY (R37). -/
def execIdentify (address : NodeAddr) (low : BitVec 8) (s : State) : Host.Outcome State Fault Refusal :=
  .next (request 0x03 identifyOwner address low s)

/-- READ_EVENTS (R36). -/
def execReadEvents (address : NodeAddr) (low : BitVec 8) (s : State) : Host.Outcome State Fault Refusal :=
  .next (request 0x04 readEvents address low s)

/-- RESET_NODE (R39). -/
def execResetNode (address : NodeAddr) (low : BitVec 8) (s : State) : Host.Outcome State Fault Refusal :=
  .next (request 0x05 resetNode address low s)

/-- SET_NODE (R38). -/
def execSetNode (address : NodeAddr) (low : BitVec 8) (s : State) : Host.Outcome State Fault Refusal :=
  .next (request 0x06 setNode address low s)

end Sys2Proof.Machine
end

