-- ==== Sys2Proof/Machine/Period.lean ====
section
/-! DEFINITION. The passing of cycle periods: the events that are due at the end of a period, the ring receiver on the
arrival of a cycle (1.2), one period of the sample clock with its computation (R2), power-on and pin reset (R23). -/

namespace Sys2Proof.Machine

/-! ### The end of a period -/

/-- An event of each index of a table, in ascending order. -/
def forEach (n : Nat) (f : Fin n → State → State) (s : State) : State := (indices n).foldl (fun s i => f i s) s

/-- The clip engine's events (R98, R101, R102, R104). -/
def State.closeClips (s : State) : State :=
  let s := forEach 4 playerPrimed (burstDone s)
  forEach 4 sequenceEnd (forEach 4 chimeEnd (captureDone (captureEnd (captureFull s))))

/-- The page scheduler's events, then the grant passes of the period (R112, R121, R123, R124). -/
def State.closePages (s : State) : State :=
  (s.pageIds.foldl (fun s id => pageExpired id (pageSourceLost id (pageTimedOut id (gapEnd id s)))) s).settle

/-- The feed pairs' events (R86, R88, R89) and the end of a crossfade (R80). -/
def State.closeFeeds (s : State) : State :=
  takeDone (forEach 4 (fun f s => mismatchBlockEnd f (feedAutoRevert f (feedBothLost f (feedChangeover f s)))) s)

/-- The alarm engine's events (R153, R156, R162, R163). -/
def State.closeAlarms (s : State) : State :=
  let s := forEach 4 contactClear (forEach 4 contactActivate s)
  forEach 4 generatorStepEnd (forEach 8 notConfirmed (forEach 8 broadcastRefresh s))

/-- A poll slot that is over without an answer is a miss (R131). -/
def State.slotOver (s : State) : State :=
  match s.icom.awaiting with
  | some p => if s.icom.slotTime = 0 then pollMiss p s else s
  | none => s

/-- Key events in hand that no command has handled (R131). -/
def State.leftKeys (s : State) : State := s.icom.keys.foldl (fun s x => handleKey x.1 x.2 s) s

/-- The intercom switch's events (R131 to R133, R142). -/
def State.closeCalls (s : State) : State :=
  let s := forEach 32 cueTimerExpiry (forEach 32 stationLost s.slotOver).leftKeys
  (s.icom.calls.map (·.id)).foldl (fun s id => callHeldTooLong id (callNoAnswer id s)) s

/-- The scanner's, the tracker's and the ring interface's events (R16, R22, R172, R173, R182). -/
def State.closeRest (s : State) : State :=
  let s := forEach 24 trackerBlockEnd (scanRestEnd (scanStepEnd s))
  alertSend (forEach 64 slotClash s)

/-- A period closes: every event still due in it happens. Events of one period that a command names happen in the
order of the commands; those no command has named happen here, in this order (DESIGN CHOICE, log entry 2). The grant
passes come after every event that can revoke a zone (R112), and the settings of a SET NODE apply after all (R38). -/
def closePeriod (s : State) : State :=
  s.closeClips.closeFeeds.closeAlarms.closeCalls.closePages.closeRest.pollCue.applySettings

/-! ### The ring receiver -/

/-- The receiver is searching for the sync pattern (R4). -/
def Ring.searching (r : Ring) : Bool := r.rx == .hunt && r.goodRun == 0

/-- The receiver reads a cycle at a bit alignment: a searching one where it finds the pattern, any other at the
alignment it keeps (R4, R5). -/
def Ring.reads (r : Ring) (align : Fin 1626) (c : RingCycle) : Bool :=
  if r.searching then c.pattern == Config.syncPattern else align == r.alignment

/-- The arriving cycle is good (R3). -/
def Ring.good (r : Ring) (c : RingCycle) : Bool :=
  c.pattern == Config.syncPattern && c.number == r.prevNumber + 1

/-- A cycle as the search of R4 keeps it. -/
def seenAt (align : Fin 1626) (c : RingCycle) : Seen :=
  { align := align, pattern := c.pattern, number := c.number }

/-- The good run and the last number of a candidate alignment over the cycles that follow its first, whose number and
run are given; none when one of them on that alignment is bad (R4). Cycles of other alignments are passed over. -/
def followCandidate (align : Fin 1626) (number : BitVec 16) (run : Nat) : List Seen → Option (Nat × BitVec 16)
  | [] => some (run, number)
  | x :: rest =>
    if x.align = align then
      if x.pattern = Config.syncPattern ∧ x.number = number + 1 then followCandidate align x.number (run + 1) rest
      else none
    else followCandidate align number run rest

/-- The receiver as the search of R4 leaves it over cycles it has been shown: the first of them with the sync pattern
whose followers on its alignment are all good is the candidate; a candidate that fails sends the search back to the
cycle after its first. With no such cycle the receiver goes on searching. The search goes over whole cycles (DESIGN
CHOICE, log entry 7). -/
def Ring.resume (r : Ring) : List Seen → Ring
  | [] => { r with goodRun := 0, stream := [] }
  | x :: rest =>
    if x.pattern = Config.syncPattern then
      match followCandidate x.align x.number 1 rest with
      | some (run, number) =>
        { r with goodRun := run, alignment := x.align, prevNumber := number, stream := x :: rest }
      | none => r.resume rest
    else r.resume rest

/-- A receiver in HUNT that has a candidate keeps what arrives beside it, for the search to resume in (R4). -/
def Ring.record (r : Ring) (align : Fin 1626) (c : RingCycle) : Ring :=
  { r with stream := r.stream ++ [seenAt align c] }

/-- The receiver after an arriving cycle (R4 to R6). DESIGN CHOICE (log entry 52): the search that begins on entering HUNT
begins with the next arrival, so the fourth bad cycle is no candidate even when its sync pattern is intact and its number
alone is wrong; R6 does not say at which bit the search begins. -/
def Ring.receive (r : Ring) (align : Fin 1626) (c : RingCycle) : Ring :=
  let good := r.good c
  match r.rx with
  | .hunt =>
    if r.searching then r.resume [seenAt align c]
    else if good then
      if 7 ≤ r.goodRun then
        { r with rx := .locked, goodRun := 8, missCount := 0, prevNumber := c.number, stream := [] }
      else { r.record align c with goodRun := r.goodRun + 1, prevNumber := c.number }
    else r.resume (r.record align c).stream.tail
  | .locked =>
    if good then { r with prevNumber := c.number }
    else { r with rx := .suspect, missCount := 1, goodRun := 0, prevNumber := c.number }
  | .suspect =>
    if good then
      if r.goodRun = 0 then { r with missCount := 0, goodRun := 1, prevNumber := c.number }
      else { r with rx := .locked, goodRun := 2, prevNumber := c.number }
    else if r.missCount = 3 then
      { r with rx := .hunt, missCount := 4, goodRun := 0, prevNumber := c.number, stream := [] }
    else { r with missCount := r.missCount + 1, goodRun := 0, prevNumber := c.number }

/-- The node cycle number after an arrival: the number read in LOCKED and SUSPECT, that of the cycle that completes a
lock, and that of the fourth miss, from which the generated numbers go on (R9, 1.2.1). -/
def Ring.numbered (r : Ring) (before : RxState) (c : RingCycle) : Ring :=
  if before = .hunt ∧ r.rx = .hunt then r else { r with cycleNumber := c.number }

/-- What the taps of a computation read: the slots of the cycle that has arrived in its period in LOCKED, and the empty
marker outside LOCKED and when none has arrived (R7, R10; log entry 9). -/
def Ring.tapped (r : Ring) : Ring :=
  { r with
    taps :=
      match r.rx, r.arrived with
      | .locked, some c => Vector.ofFn (fun i => (c.slots[i]).toInt)
      | _, _ => Vector.replicate 64 Config.emptyMarker }

/-- Leaving LOCKED clears the request buffer, fails a capture and starts a waiting TAKE (R7). -/
def State.leaveLocked (s : State) : State := s.clearBuffer.captureRingLost.takeRingLost

/-- Entering HUNT posts RING LOST, ends the trunk calls and discards a pending reply (R6, R7, R33). DESIGN CHOICE (log
entry 46): RING LOST joins the event list before the CALL ENDED records of the trunk calls; R35 lets the records of
different blocks join in either order. -/
def State.enterHunt (s : State) : State :=
  let s := (s.post .ringLost 0 0).endCalls Call.trunk callRingLost
  s.setCtl { s.ctl with reply := none }

/-- What a change of the receiver's state brings with it (R4, R6, R7). -/
def State.rxChanged (s : State) (before : RxState) : State :=
  match before, s.ring.rx with
  | .locked, .suspect => s.leaveLocked
  | .suspect, .hunt => s.enterHunt
  | .hunt, .locked => s.post .ringRegained 0 0
  | _, _ => s

/-- A cycle the receiver reads arrives (R3 to R7, R9, R10, R16, R77). -/
def State.arrive (s : State) (align : Fin 1626) (c : RingCycle) : State :=
  let before := s.ring.rx
  let s := s.setRing { (s.ring.receive align c).numbered before c with arrived := some c }
  let s := (s.rxChanged before).countClashes c.slots
  if s.heard then s.compareTake c.number else s

/-- The arrival of a cycle, the period before it being closed. One the receiver does not read changes nothing, but that
a receiver in HUNT with a candidate keeps it for its search (R4). -/
def cycleArrival (align : Fin 1626) (c : RingCycle) (s : State) : State :=
  if s.ring.reads align c then (closePeriod s).arrive align c
  else if s.ring.rx = .hunt ∧ s.ring.searching = false then s.setRing (s.ring.record align c)
  else s

/-- The arrival is the fourth miss (R6). -/
def Ring.losing (r : Ring) (align : Fin 1626) (c : RingCycle) : Bool :=
  r.rx == .suspect && r.missCount == 3 && r.reads align c && !r.good c

/-- The arrival completes a lock from HUNT (R4). -/
def Ring.regaining (r : Ring) (align : Fin 1626) (c : RingCycle) : Bool :=
  r.rx == .hunt && decide (7 ≤ r.goodRun) && r.reads align c && r.good c

/-! ### One cycle period -/

/-- The taps of the computation to come read the cycle that has arrived; until then they stay those of the computation
before (R10, R85). -/
def State.readTaps (s : State) : State := s.setRing s.ring.tapped

/-- What falls at the start of a period: released players enter IDLE, a due TAKE starts, the scanner chooses, the
arbiter grants, a poll slot begins, the taps read the arrived cycle (R10, R77, R100, R102, R131, R171). The TAKE DONE of a
TAKE with T of 0 that starts here joins the event list before the other records of CYCLE_PERIOD (DESIGN CHOICE, log entry
46), and in HUNT its stamp is the node cycle number of the period before (DESIGN CHOICE, log entry 57). -/
def State.beginPeriod (s : State) : State :=
  let s := forEach 4 (fun p s => s.idlePlayer p) s
  ((burstGrant (takeStart s).scanChoose).pollStart).readTaps

/-- The state in which a period has begun: the period before is closed, by the arrival of a cycle or here, and what
falls at the start has happened. -/
def State.begun (s : State) : State := (if s.ring.arrived.isSome then s else closePeriod s).beginPeriod

/-- What comes before the computation: input samples, the glide of Ce and the duck step (R45, R68, R181). -/
def State.prepare (s : State) (frame : Vector RawSample 32) : State := (s.takeInputs frame).glideAll.duckAll

/-- The computation (R2). -/
def State.compute (s : State) : Computation :=
  let players : Vector Int 4 := Vector.ofFn s.clips.playerOut
  let gens := s.alarm.generatorSamples
  let zones : Vector Int 24 := Vector.ofFn (s.zoneSample players gens)
  { zones := zones, speakers := Vector.ofFn (s.speakerSample zones), noneOut := s.noneSample gens
    inputs := s.ports.samples, players := players, trunks := s.trunkSamples }

/-- The output frame and the ring cycle are sent with the computation made two periods before, and this one joins
the pipeline (R2, R43, R48). -/
def State.send (s : State) (k : Computation) : State :=
  (((s.sendFrame s.older).sendCycle s.older).countGenerated).setSamples k s.recent

/-- What follows the computation: players, generators, feed pairs, capture and trackers take their step (R87, R97,
R103, R153, R182). UNDERRUN joins the event list before FEED CHANGED (DESIGN CHOICE, log entry 46), the UNDERRUN records
of several players in ascending player number, and the FEED CHANGED records of several pairs that leave BOTH LOST in
ascending pair number (DESIGN CHOICE, log entry 53). -/
def State.advance (s : State) : State :=
  let s := forEach 4 (fun p s => s.playerStep p) s
  let s := (s.setAlarm s.alarm.advanceAll).feedTick
  (forEach 4 (fun f s => s.feedRecovery f) s).captureSample.measureAll

/-- Every timer counts the period. -/
def State.tick (s : State) (contacts : BitVec 4) : State :=
  let s := (s.pageTick.icomTick).alarmTick contacts
  (s.setLines s.lines.tick).burstTick

/-- What falls at the end of the period's own work: the crossfade step, the zones a TAKE handed over, the cycle to be
sent next. -/
def State.finish (s : State) : State := ((s.setScene s.scene.advance).actOnHanded).nextForward

/-- One cycle period of the sample clock (R2). -/
def cyclePeriod (frame : Vector RawSample 32) (contacts : BitVec 4) (s : State) : State :=
  let s := s.begun.prepare frame
  ((s.send s.compute).advance.tick contacts).finish

/-! ### Meanings -/

/-- POWER_ON (R23, R40, R51, R72, R83, R90, R105, R128, R150, R169, R179, R189); commands that wait go on waiting. -/
def execPowerOn (s : State) : Host.Outcome State Fault Refusal := .next { State.reset with pending := s.pending }

/-- PIN_RESET (R23): the same state as after power-on. -/
def execPinReset (s : State) : Host.Outcome State Fault Refusal := .next { State.reset with pending := s.pending }

/-- CYCLE_PERIOD (R2). -/
def execCyclePeriod (frame : Vector RawSample 32) (contacts : BitVec 4) (s : State) :
    Host.Outcome State Fault Refusal := .next (cyclePeriod frame contacts s)

/-- CYCLE_ARRIVAL (R3). -/
def execCycleArrival (align : Fin 1626) (c : RingCycle) (s : State) : Host.Outcome State Fault Refusal :=
  .next (cycleArrival align c s)

/-- RING_LOST (R6): the arrival of the fourth miss, when it is that. -/
def execRingLost (align : Fin 1626) (c : RingCycle) (s : State) : Host.Outcome State Fault Refusal :=
  .next (if s.ring.losing align c then cycleArrival align c s else s)

/-- RING_REGAINED (R4): the arrival that completes a lock from HUNT, when it does. -/
def execRingRegained (align : Fin 1626) (c : RingCycle) (s : State) : Host.Outcome State Fault Refusal :=
  .next (if s.ring.regaining align c then cycleArrival align c s else s)

end Sys2Proof.Machine
end

