-- ==== Sys2Proof/Machine/Closes.lean ====
section
/-! DEFINITION. The CLOSE words that run no request of their own row: unknown codes, words of other nodes, universal
words that are only forwarded, and own words that meet a pending reply. Each of these rows is a CLOSE word on the
line, so each is handled by its address and code as R24, R29, R32 and R34 say, whatever row a word was given under. -/

namespace Sys2Proof.Machine

/-- The request code table (2.8.5) with the block that owns each request. -/
def owners : List (BitVec 8 × (List Word16 → State → Answer)) :=
  [ (0x01, ownRefused 1), (0x02, ownRefused 0), (0x03, identifyOwner), (0x04, readEvents), (0x05, resetNode),
    (0x06, setNode), (0x10, setInsert), (0x11, clearInsert), (0x18, setPort), (0x19, setInput), (0x1A, setChannel),
    (0x20, loadRoute), (0x21, clearRoute), (0x22, setZone), (0x23, setZoneLocal), (0x24, readZone) ] ++
  [ (0x28, takeOwner), (0x29, copyBank), (0x2A, setFeed), (0x2B, revertFeed), (0x30, defineClip), (0x31, deleteClip),
    (0x32, writeClip), (0x33, captureClip), (0x34, cancelCapture), (0x35, readClip), (0x38, queuePage),
    (0x39, cancelPage), (0x3A, readPage) ] ++
  [ (0x40, setStation), (0x41, offerCall), (0x42, bridgeCall), (0x43, endCallRequest), (0x44, readCall),
    (0x48, setPatternStep), (0x49, setContact), (0x4A, setGroup), (0x4B, alarmStart), (0x4C, alarmStop),
    (0x4D, silenceAlarm), (0x50, setWindow), (0x51, setScan), (0x52, readLines), (0x58, setTracker),
    (0x59, resetTracker), (0x5A, readTracker) ]

/-- The owner of a request code, none for a code that is not in the table. -/
def ownerOf (code : BitVec 8) : Option (List Word16 → State → Answer) :=
  (owners.find? (fun x => x.1 == code)).map (·.2)

/-- A universal CLOSE of a code (R34). -/
def universalOf (code low : BitVec 8) (s : State) : State :=
  if code = 0x01 then universalEnroll low s
  else if code = 0x02 then universalRequest 0x02 releaseOwner low s
  else if code = 0x28 then universalRequest 0x28 takeOwner low s
  else s.forwardClose 0 code low

/-- The answer to an own CLOSE of a code: CHECK before UNKNOWN before BAD LENGTH (R29). -/
def examineCode (code : BitVec 8) (s : State) : Answer :=
  match ownerOf code with
  | some owner => examine owner s
  | none => if s.ctl.buffer.spoiled then .refuse .check s else .refuse .unknown s

/-- Any CLOSE word, by its address and code (R24, R29, R32, R34). -/
def closeAny (address : NodeAddr) (code low : BitVec 8) (s : State) : State :=
  if s.heard then
    if address = 0 then universalOf code low s
    else if address = s.ring.address then
      if s.ctl.reply.isSome then s.overlapClose address else State.consume code (examineCode code s)
    else s.forwardClose address code low
  else s.passControl (controlWord .close address (code ++ low))

/-- The request code and the low bits of a CLOSE payload (2.8.2). -/
def closeCode (payload : BitVec 16) : BitVec 8 := payload.extractLsb' 8 8
def closeLow (payload : BitVec 16) : BitVec 8 := payload.extractLsb' 0 8

/-! ### Meanings -/

/-- UNKNOWN_REQUEST (R29). -/
def execUnknownRequest (address : NodeAddr) (code low : BitVec 8) (s : State) : Host.Outcome State Fault Refusal :=
  .next (closeAny address code low s)

/-- CLOSE_OTHER (R24). -/
def execCloseOther (address : NodeAddr) (payload : BitVec 16) (s : State) : Host.Outcome State Fault Refusal :=
  .next (closeAny address (closeCode payload) (closeLow payload) s)

/-- UNIVERSAL_CLOSE_FORWARDED (R34). -/
def execUniversalCloseForwarded (payload : BitVec 16) (s : State) : Host.Outcome State Fault Refusal :=
  .next (closeAny 0 (closeCode payload) (closeLow payload) s)

/-- OWN_CLOSE_DISCARDED (R32). An UNNAMED node has no own words (2.1). -/
def execOwnCloseDiscarded (payload : BitVec 16) (s : State) : Host.Outcome State Fault Refusal :=
  .next (if s.ring.address = 0 then s else closeAny s.ring.address (closeCode payload) (closeLow payload) s)

end Sys2Proof.Machine
end

