-- ==== Sys2Proof/Machine/Dispatch.lean ====
section
/-! DEFINITION. Every command's meaning, one arm for each row of spec/opcode_table.json. -/

namespace Sys2Proof.Machine

def exec (i : Instr) (s : State) : Host.Outcome State Fault Refusal :=
  match i with
  | .powerOn => Sys2Proof.Machine.execPowerOn s
  | .pinReset => Sys2Proof.Machine.execPinReset s
  | .cyclePeriod frame contacts => Sys2Proof.Machine.execCyclePeriod frame contacts s
  | .cycleArrival align cycle => Sys2Proof.Machine.execCycleArrival align cycle s
  | .ringLost align cycle => Sys2Proof.Machine.execRingLost align cycle s
  | .ringRegained align cycle => Sys2Proof.Machine.execRingRegained align cycle s
  | .paramWord address data => Sys2Proof.Machine.execParamWord address data s
  | .closeOther address payload => Sys2Proof.Machine.execCloseOther address payload s
  | .echoWord address payload => Sys2Proof.Machine.execEchoWord address payload s
  | .faultWord address payload => Sys2Proof.Machine.execFaultWord address payload s
  | .badControlWord word => Sys2Proof.Machine.execBadControlWord word s
  | .sendReplyWord address payload => Sys2Proof.Machine.execSendReplyWord address payload s
  | .unknownRequest address code low => Sys2Proof.Machine.execUnknownRequest address code low s
  | .alertWordArrival word => Sys2Proof.Machine.execAlertWordArrival word s
  | .alertSend => Sys2Proof.Machine.execAlertSend s
  | .slotClash slot => Sys2Proof.Machine.execSlotClash slot s
  | .enroll address low => Sys2Proof.Machine.execEnroll address low s
  | .releaseAll address low => Sys2Proof.Machine.execReleaseAll address low s
  | .identify address low => Sys2Proof.Machine.execIdentify address low s
  | .readEvents address low => Sys2Proof.Machine.execReadEvents address low s
  | .resetNode address low => Sys2Proof.Machine.execResetNode address low s
  | .setNode address low => Sys2Proof.Machine.execSetNode address low s
  | .setInsert address low => Sys2Proof.Machine.execSetInsert address low s
  | .clearInsert address low => Sys2Proof.Machine.execClearInsert address low s
  | .setPort address low => Sys2Proof.Machine.execSetPort address low s
  | .setInput address low => Sys2Proof.Machine.execSetInput address low s
  | .setChannel address low => Sys2Proof.Machine.execSetChannel address low s
  | .returnLaneFrame readings => Sys2Proof.Machine.execReturnLaneFrame readings s
  | .loadRoute address low => Sys2Proof.Machine.execLoadRoute address low s
  | .clearRoute address low => Sys2Proof.Machine.execClearRoute address low s
  | .setZone address low => Sys2Proof.Machine.execSetZone address low s
  | .setZoneLocal address low => Sys2Proof.Machine.execSetZoneLocal address low s
  | .readZone address low => Sys2Proof.Machine.execReadZone address low s
  | .take address low => Sys2Proof.Machine.execTake address low s
  | .takeStart => Sys2Proof.Machine.execTakeStart s
  | .takeDone => Sys2Proof.Machine.execTakeDone s
  | .copyBank address low => Sys2Proof.Machine.execCopyBank address low s
  | .setFeed address low => Sys2Proof.Machine.execSetFeed address low s
  | .revertFeed address low => Sys2Proof.Machine.execRevertFeed address low s
  | .feedChangeover pair => Sys2Proof.Machine.execFeedChangeover pair s
  | .feedBothLost pair => Sys2Proof.Machine.execFeedBothLost pair s
  | .feedAutoRevert pair => Sys2Proof.Machine.execFeedAutoRevert pair s
  | .mismatchBlockEnd pair => Sys2Proof.Machine.execMismatchBlockEnd pair s
  | .defineClip address low => Sys2Proof.Machine.execDefineClip address low s
  | .deleteClip address low => Sys2Proof.Machine.execDeleteClip address low s
  | .writeClip address low => Sys2Proof.Machine.execWriteClip address low s
  | .captureClip address low => Sys2Proof.Machine.execCaptureClip address low s
  | .captureFull => Sys2Proof.Machine.execCaptureFull s
  | .captureEnd => Sys2Proof.Machine.execCaptureEnd s
  | .captureDone => Sys2Proof.Machine.execCaptureDone s
  | .cancelCapture address low => Sys2Proof.Machine.execCancelCapture address low s
  | .readClip address low => Sys2Proof.Machine.execReadClip address low s
  | .burstGrant => Sys2Proof.Machine.execBurstGrant s
  | .burstDone => Sys2Proof.Machine.execBurstDone s
  | .playerPrimed player => Sys2Proof.Machine.execPlayerPrimed player s
  | .chimeEnd player => Sys2Proof.Machine.execChimeEnd player s
  | .sequenceEnd player => Sys2Proof.Machine.execSequenceEnd player s
  | .gapEnd page => Sys2Proof.Machine.execGapEnd page s
  | .queuePage address low => Sys2Proof.Machine.execQueuePage address low s
  | .pageExpired page => Sys2Proof.Machine.execPageExpired page s
  | .pageTimedOut page => Sys2Proof.Machine.execPageTimedOut page s
  | .pageSourceLost page => Sys2Proof.Machine.execPageSourceLost page s
  | .cancelPage address low => Sys2Proof.Machine.execCancelPage address low s
  | .readPage address low => Sys2Proof.Machine.execReadPage address low s
  | .pollReply port keys => Sys2Proof.Machine.execPollReply port keys s
  | .pollMiss port => Sys2Proof.Machine.execPollMiss port s
  | .stationLost port => Sys2Proof.Machine.execStationLost port s
  | .cueTimerExpiry port => Sys2Proof.Machine.execCueTimerExpiry port s
  | .call port number => Sys2Proof.Machine.execCall port number s
  | .answer port => Sys2Proof.Machine.execAnswer port s
  | .hangUp port => Sys2Proof.Machine.execHangUp port s
  | .emergency port => Sys2Proof.Machine.execEmergency port s
  | .pagePress port => Sys2Proof.Machine.execPagePress port s
  | .pageRelease port => Sys2Proof.Machine.execPageRelease port s
  | .volumeUp port => Sys2Proof.Machine.execVolumeUp port s
  | .volumeDown port => Sys2Proof.Machine.execVolumeDown port s
  | .setStation address low => Sys2Proof.Machine.execSetStation address low s
  | .offerCall address low => Sys2Proof.Machine.execOfferCall address low s
  | .bridgeCall address low => Sys2Proof.Machine.execBridgeCall address low s
  | .endCall address low => Sys2Proof.Machine.execEndCall address low s
  | .callNoAnswer id => Sys2Proof.Machine.execCallNoAnswer id s
  | .callHeldTooLong id => Sys2Proof.Machine.execCallHeldTooLong id s
  | .readCall address low => Sys2Proof.Machine.execReadCall address low s
  | .setPatternStep address low => Sys2Proof.Machine.execSetPatternStep address low s
  | .generatorStepEnd generator => Sys2Proof.Machine.execGeneratorStepEnd generator s
  | .setContact address low => Sys2Proof.Machine.execSetContact address low s
  | .contactActivate line => Sys2Proof.Machine.execContactActivate line s
  | .contactClear line => Sys2Proof.Machine.execContactClear line s
  | .setGroup address low => Sys2Proof.Machine.execSetGroup address low s
  | .alarmStart address low => Sys2Proof.Machine.execAlarmStart address low s
  | .alarmStop address low => Sys2Proof.Machine.execAlarmStop address low s
  | .silenceAlarm address low => Sys2Proof.Machine.execSilenceAlarm address low s
  | .broadcastRefresh entry => Sys2Proof.Machine.execBroadcastRefresh entry s
  | .notConfirmed entry => Sys2Proof.Machine.execNotConfirmed entry s
  | .setWindow address low => Sys2Proof.Machine.execSetWindow address low s
  | .setScan address low => Sys2Proof.Machine.execSetScan address low s
  | .scanStepEnd => Sys2Proof.Machine.execScanStepEnd s
  | .scanRestEnd => Sys2Proof.Machine.execScanRestEnd s
  | .readLines address low => Sys2Proof.Machine.execReadLines address low s
  | .setTracker address low => Sys2Proof.Machine.execSetTracker address low s
  | .resetTracker address low => Sys2Proof.Machine.execResetTracker address low s
  | .readTracker address low => Sys2Proof.Machine.execReadTracker address low s
  | .trackerBlockEnd zone => Sys2Proof.Machine.execTrackerBlockEnd zone s
  | .universalCloseForwarded payload => Sys2Proof.Machine.execUniversalCloseForwarded payload s
  | .ownCloseDiscarded payload => Sys2Proof.Machine.execOwnCloseDiscarded payload s

end Sys2Proof.Machine
end

