-- ==== Sys2Proof/WellFormed.lean ====
section
/-! DEFINITION. Which operands a command may carry: what the rules say of a key event, of a reply of the station bus,
of the ids of records, and of the control words that a row covers. A request's operands are an address and 8 ignored
bits, and any values of them are well formed. -/

namespace Sys2Proof

/-- A directory number is 1..9,999 (R129). -/
def dirNumberOk (n : DirNumber) : Bool := decide (1 ≤ n.toNat) && decide (n.toNat ≤ 9999)

/-- A key event carries a directory number only with CALL (R131). -/
def Key.wf : Key → Bool
  | .call n => dirNumberOk n
  | _ => true

/-- The request codes executed as universal requests (R34). -/
def universalCodes : List (BitVec 8) := [0x01, 0x02, 0x28]

/-- The well-formed commands. -/
def Instr.wf : Instr → Bool
  | .closeOther address _ => address != 0
  | .badControlWord w => Machine.badWord w
  | .universalCloseForwarded payload => !universalCodes.contains (payload.extractLsb' 8 8)
  | .pollReply _ keys => decide (keys.length ≤ 2) && keys.all Key.wf
  | .call _ n => dirNumberOk n
  | .gapEnd page => page != 0
  | .pageExpired page => page != 0
  | .pageTimedOut page => page != 0
  | .pageSourceLost page => page != 0
  | .callNoAnswer id => id != 0
  | .callHeldTooLong id => id != 0
  | _ => true

end Sys2Proof
end

