-- ==== Sys2Proof/Safety.lean ====
section
/-! DEFINITION. The terms in which the statements speak: the request code table of 2.8.5 with its word counts, the
OUT OF RANGE rows of the requests' check tables, the state in which an own CLOSE executes, the state an answer leaves,
and the invariants of the node. Written from the manual's tables, apart from the meanings. -/

namespace Sys2Proof.Machine

/-! ### Control words as commands -/

/-- A number as a parameter word. -/
def word (n : Nat) : Word16 := BitVec.ofNat 16 n

/-- The request rows: request code, address field and low payload bits of the CLOSE word (2.8.5). -/
def requestOf : Instr → Option (BitVec 8 × NodeAddr × BitVec 8)
  | .enroll a l => some (0x01, a, l)
  | .releaseAll a l => some (0x02, a, l)
  | .identify a l => some (0x03, a, l)
  | .readEvents a l => some (0x04, a, l)
  | .resetNode a l => some (0x05, a, l)
  | .setNode a l => some (0x06, a, l)
  | .setInsert a l => some (0x10, a, l)
  | .clearInsert a l => some (0x11, a, l)
  | .setPort a l => some (0x18, a, l)
  | .setInput a l => some (0x19, a, l)
  | .setChannel a l => some (0x1A, a, l)
  | .loadRoute a l => some (0x20, a, l)
  | .clearRoute a l => some (0x21, a, l)
  | .setZone a l => some (0x22, a, l)
  | .setZoneLocal a l => some (0x23, a, l)
  | .readZone a l => some (0x24, a, l)
  | .take a l => some (0x28, a, l)
  | .copyBank a l => some (0x29, a, l)
  | .setFeed a l => some (0x2A, a, l)
  | .revertFeed a l => some (0x2B, a, l)
  | .defineClip a l => some (0x30, a, l)
  | .deleteClip a l => some (0x31, a, l)
  | .writeClip a l => some (0x32, a, l)
  | .captureClip a l => some (0x33, a, l)
  | .cancelCapture a l => some (0x34, a, l)
  | .readClip a l => some (0x35, a, l)
  | .queuePage a l => some (0x38, a, l)
  | .cancelPage a l => some (0x39, a, l)
  | .readPage a l => some (0x3A, a, l)
  | .setStation a l => some (0x40, a, l)
  | .offerCall a l => some (0x41, a, l)
  | .bridgeCall a l => some (0x42, a, l)
  | .endCall a l => some (0x43, a, l)
  | .readCall a l => some (0x44, a, l)
  | .setPatternStep a l => some (0x48, a, l)
  | .setContact a l => some (0x49, a, l)
  | .setGroup a l => some (0x4A, a, l)
  | .alarmStart a l => some (0x4B, a, l)
  | .alarmStop a l => some (0x4C, a, l)
  | .silenceAlarm a l => some (0x4D, a, l)
  | .setWindow a l => some (0x50, a, l)
  | .setScan a l => some (0x51, a, l)
  | .readLines a l => some (0x52, a, l)
  | .setTracker a l => some (0x58, a, l)
  | .resetTracker a l => some (0x59, a, l)
  | .readTracker a l => some (0x5A, a, l)
  | _ => none

/-- Every row that is a CLOSE word with an address field of its own. -/
def closeOf : Instr → Option (BitVec 8 × NodeAddr × BitVec 8)
  | .unknownRequest a code l => some (code, a, l)
  | .closeOther a p => some (p.extractLsb' 8 8, a, p.extractLsb' 0 8)
  | .universalCloseForwarded p => some (p.extractLsb' 8 8, 0, p.extractLsb' 0 8)
  | i => requestOf i

/-- The control word a command is on the line. -/
def lineWord : Instr → Option (BitVec 32)
  | .paramWord a d => some (controlWord .param a d)
  | .echoWord a p => some (controlWord .echo a p)
  | .faultWord a p => some (controlWord .fault a p)
  | .sendReplyWord a p => some (controlWord .idle a p)
  | .badControlWord w => if badWord w then some w else none
  | i => (closeOf i).map (fun c => controlWord .close c.2.1 (c.1 ++ c.2.2))

/-- The request codes of the table (2.8.5). -/
def requestCodes : List (BitVec 8) :=
  [0x01, 0x02, 0x03, 0x04, 0x05, 0x06, 0x10, 0x11, 0x18, 0x19, 0x1A, 0x20, 0x21, 0x22, 0x23, 0x24, 0x28, 0x29, 0x2A,
    0x2B, 0x30, 0x31, 0x32] ++
  [0x33, 0x34, 0x35, 0x38, 0x39, 0x3A, 0x40, 0x41, 0x42, 0x43, 0x44, 0x48, 0x49, 0x4A, 0x4B, 0x4C, 0x4D, 0x50, 0x51,
    0x52, 0x58, 0x59, 0x5A]

/-- How many parameter words a request allows: least and most (2.8.5). -/
def wordCounts (code : BitVec 8) : Nat × Nat :=
  match code.toNat with
  | 0x01 => (1, 1)
  | 0x06 => (5, 5)
  | 0x10 => (2, 2)
  | 0x11 => (1, 1)
  | 0x18 => (2, 2)
  | 0x19 => (3, 3)
  | 0x1A => (2, 2)
  | 0x20 => (4, 4)
  | 0x21 => (2, 2)
  | 0x22 => (7, 7)
  | 0x23 => (4, 4)
  | 0x24 => (1, 1)
  | 0x28 => (1, 2)
  | 0x2A => (6, 6)
  | 0x2B => (1, 1)
  | 0x30 => (7, 7)
  | 0x31 => (1, 1)
  | 0x32 => (3, 16)
  | 0x33 => (3, 3)
  | 0x35 => (1, 1)
  | 0x38 => (14, 14)
  | 0x39 => (1, 1)
  | 0x3A => (1, 1)
  | 0x40 => (11, 11)
  | 0x41 => (3, 3)
  | 0x42 => (3, 3)
  | 0x43 => (2, 2)
  | 0x44 => (1, 1)
  | 0x48 => (6, 6)
  | 0x49 => (2, 2)
  | 0x4A => (3, 3)
  | 0x4B => (7, 7)
  | 0x4C => (1, 1)
  | 0x4D => (1, 1)
  | 0x50 => (4, 4)
  | 0x51 => (3, 3)
  | 0x58 => (9, 9)
  | 0x59 => (1, 1)
  | 0x5A => (1, 1)
  | _ => (0, 0)

/-- How many REPLY words a request answered OK or ACCEPTED returns (2.8.5); READ EVENTS with e records listed. -/
def replyCount (code : BitVec 8) (e : Nat) : Nat :=
  match code.toNat with
  | 0x03 => 12
  | 0x04 => 1 + 2 * min 7 e
  | 0x24 => 6
  | 0x35 => 8
  | 0x3A => 8
  | 0x41 => 1
  | 0x44 => 6
  | 0x52 => 16
  | 0x5A => 4
  | _ => 0

/-! ### The OUT OF RANGE rows -/

/-- A word outside `low..high`. -/
def outside (low high : Nat) (w : Word16) : Bool := decide (w.toNat < low) || decide (high < w.toNat)

/-- A source word of R53 is none of its codes. -/
def badRouteSource (w : Word16) : Bool := outside 0 63 w && outside 256 287 w && outside 512 515 w

/-- A zone, slot or voice word that may also be 255 for none. -/
def badOptional (high : Nat) (w : Word16) : Bool := outside 0 high w && outside 255 255 w

/-- The first OUT OF RANGE row of a request's check table holds of its parameter words (R12, R13, R38, R44, R46, R49,
R54 to R59, R70, R84, R88, R92 to R96, R107, R126, R127, R130, R139 to R141, R149, R152, R157 to R161, R170, R174,
R180, R187, R188). -/
def outOfRange (code : BitVec 8) (ws : List Word16) : Bool :=
  match code.toNat, ws with
  | 0x06, [mode, number, _, _, _] => outside 0 1 mode || outside 0 9999 number
  | 0x10, [slot, src] =>
    outside 0 63 slot || (outside 256 287 src && outside 512 535 src && outside 768 771 src)
  | 0x11, [slot] => outside 0 63 slot
  | 0x18, [port, format] => outside 0 1 port || outside 0 1 format
  | 0x19, [input, trim, role] => outside 0 31 input || outside 0 3 trim || (outside 0 0 role && outside 256 303 role)
  | 0x1A, [channel, role] =>
    outside 0 31 channel || (outside 0 0 role && outside 256 279 role && outside 512 543 role)
  | 0x20, [zone, src, _, role] => outside 0 23 zone || badRouteSource src || outside 0 1 role
  | 0x21, [zone, src] => outside 0 23 zone || badRouteSource src
  | 0x22, [zone, mode, h, _, _, _, _] =>
    outside 0 23 zone || outside 0 2 mode || (mode.toNat == 1 && outside 1 15 h)
  | 0x23, [zone, _, _, _] => outside 0 23 zone
  | 0x24, [zone] => outside 0 23 zone
  | 0x2A, [pair, main, backup, _, hi, _] =>
    (outside 0 3 pair && outside 256 259 pair) || outside 0 63 main || outside 0 63 backup || outside 0 127 hi
  | 0x2B, [pair] => outside 0 3 pair
  | 0x30, [clip, hi, _, lenHi, lenLo, honour, _] =>
    outside 0 255 clip || outside 0 63 hi || outside 0 1 honour || wide lenHi lenLo == 0
      || decide (4194304 < wide lenHi lenLo)
  | 0x31, [clip] => outside 0 255 clip
  | 0x32, w0 :: _ => decide (63 < w0.toNat % 256)
  | 0x33, [clip, slot, mode] => outside 0 255 clip || outside 0 63 slot || outside 0 1 mode
  | 0x35, [clip] => outside 0 255 clip
  | 0x38, [id, w1, src, chime, _, _, _, _, zlo, zhi, _, _, _, _] =>
    id.toNat == 0 || !outside 65280 65311 id || w1.toNat % 16 == 0
      || (outside 0 63 src && outside 256 287 src && outside 513 520 src)
      || (outside 0 255 chime && outside 65535 65535 chime) || outside 0 255 zhi || (zlo.toNat == 0 && zhi.toNat == 0)
  | 0x39, [id] => id.toNat == 0
  | 0x3A, [id] => id.toNat == 0
  | 0x40, [port, number, mic, speaker, listen, _, _, ghi, _, _, volume] =>
    outside 0 31 port || (number.toNat != 0 &&
      (outside 1 9999 number || outside 0 31 mic || outside 0 31 speaker || badOptional 23 listen
        || outside 0 255 ghi || badOptional 23 volume))
  | 0x41, [w0, remote, _] =>
    w0.toNat % 16384 == 0 || decide (9999 < w0.toNat % 16384) || w0.getLsbD 14 || outside 1 9999 remote
  | 0x42, [id, tx, rx] => outside 1 255 id || outside 0 63 tx || outside 0 63 rx
  | 0x43, [id, cause] => outside 1 255 id || outside 10 15 cause
  | 0x44, [id] => outside 1 255 id
  | 0x48, [w0, _, _, _, hi, _] =>
    decide (w0.toNat / 256 = 0) || decide (7 < w0.toNat / 256) || w0.toNat % 4 == 3 || w0.getLsbD 3 || outside 0 127 hi
  | 0x49, [line, w1] => outside 0 3 line || outside 0 511 w1
  | 0x4A, [group, zlo, zhi] => outside 0 7 group || outside 0 255 zhi || (zlo.toNat == 0 && zhi.toNat == 0)
  | 0x4B, [id, cls, group, pattern, voice, broadcast, _] =>
    outside 1 255 id || outside 0 3 cls || outside 0 7 group || outside 0 7 pattern || badOptional 63 voice
      || outside 0 1 broadcast
  | 0x4C, [id] => outside 1 255 id
  | 0x4D, [entry] => outside 0 7 entry
  | 0x50, [channel, enabled, low, high] =>
    outside 0 31 channel || outside 0 1 enabled || outside 0 4095 low || outside 0 4095 high
      || decide (high.toNat < low.toNat)
  | 0x51, [t, b, _] => outside 0 31 t || outside 0 255 b
  | 0x58, [zone, p, q, _, _, _, _, _, _] => outside 0 23 zone || outside 1 99 p || outside 0 15 q
  | 0x59, [zone] => outside 0 23 zone
  | 0x5A, [zone] => outside 0 23 zone
  | _, _ => false

/-! ### An own CLOSE, and what it leaves -/

/-- An own CLOSE of this address meets a LOCKED, NAMED node with no pending reply (2.1, R29). -/
def State.own (s : State) (a : NodeAddr) : Prop :=
  s.ring.rx = .locked ∧ a ≠ 0 ∧ a = s.ring.address ∧ s.ctl.reply = none

/-- The same with these parameter words in an unmarked request buffer. -/
def State.asked (s : State) (a : NodeAddr) (ws : List Word16) : Prop :=
  s.own a ∧ s.ctl.buffer = { words := ws, tooLong := false, spoiled := false }

/-- The state with another word in the control slot of the cycle to be sent. -/
def State.withControl (s : State) (w : BitVec 32) : State :=
  { s with ring := { s.ring with
      forward := { s.ring.forward with cycle := { s.ring.forward.cycle with control := w } } } }

/-- The state with the request buffer clear. -/
def State.withClearBuffer (s : State) : State :=
  { s with ctl := { s.ctl with buffer := { words := [], tooLong := false, spoiled := false } } }

/-- The state an answered request leaves beside its own effect: the idle word in the slot of its CLOSE, the buffer
clear, the reply pending (R28, R29, R31). -/
def State.answered (s : State) (code : BitVec 8) (status : Status) (reply : List Word16) : State :=
  { s.withControl 0 with
    ctl := { s.ctl with
      buffer := { words := [], tooLong := false, spoiled := false }
      reply := some { words := reply, code := code, status := status } } }

/-- The state with one more event posted (R35). -/
def State.withEvent (s : State) (kind : EventKind) (subject : Nat) (detail : Nat) : State :=
  let e : EventRec :=
    { kind := kind, stamp := s.ring.cycleNumber.extractLsb' 9 7, subject := word subject
      detail := BitVec.ofNat 4 detail }
  { s with ctl :=
      if s.ctl.events.length < 16 then { s.ctl with events := s.ctl.events ++ [e] }
      else { s.ctl with catchRec := some e, overflow := true } }

/-! ### Operands as words -/

/-- The source word of a route (R53). -/
def routeWord : RouteSource → Word16
  | .ringSlot t => word t.val
  | .localInput i => word (256 + i.val)
  | .feed f => word (512 + f.val)

/-- The source word of SET INSERT (R12); a trunk call has none. -/
def insertWord : InsertSource → Option Word16
  | .localInput i => some (word (256 + i.val))
  | .zone z => some (word (512 + z.val))
  | .player p => some (word (768 + p.val))
  | .trunkCall _ => none

/-- The role word of SET INPUT (R46). -/
def inputWord : InputRole → Word16
  | .line => word 0
  | .sense z p => word (256 + 2 * z.val + p.val)

/-- The zone of a sense role. -/
def senseZone : InputRole → Option (Fin 24)
  | .line => none
  | .sense z _ => some z

/-- The role word of SET CHANNEL (R49). -/
def channelWord : ChannelRole → Word16
  | .none => word 0
  | .zone z => word (256 + z.val)
  | .station p => word (512 + p.val)

/-- The mode and threshold words of SET ZONE give a mode (R57). -/
def modeWords (mode threshold : Word16) : ZoneMode → Prop
  | .normal => mode = word 0
  | .showLocked h => mode = word 1 ∧ threshold = word h ∧ 1 ≤ h ∧ h ≤ 15
  | .off => mode = word 2

/-- A slot or zone word that is 255 for none (R130, R159). -/
def optionWord {n : Nat} : Option (Fin n) → Word16
  | some x => word x.val
  | none => word 255

/-- The source words of QUEUE PAGE: the source word, and the clip list two a word, high byte first (R107). -/
def sourceWords (source : PageSource) (w l0 l1 l2 l3 : Word16) : Prop :=
  match source with
  | .liveSlot t => w = word t.val
  | .liveInput i => w = word (256 + i.val)
  | .clips l => 1 ≤ l.length ∧ l.length ≤ 8 ∧ w = word (512 + l.length) ∧
      l = (([l0, l1, l2, l3].flatMap
        (fun x => [Fin.ofNat 256 (x.toNat / 256), Fin.ofNat 256 (x.toNat % 256)])).take l.length)

/-- The zone set of its two words (R107). -/
def zoneWords (zs : ZoneSet) (low high : Word16) : Prop :=
  high.toNat ≤ 255 ∧ ∀ z : Fin 24,
    zs.getLsbD z.val = if z.val < 16 then low.getLsbD z.val else high.getLsbD (z.val - 16)

/-! ### The search of the receiver -/

/-- A cycle with those that follow it on its alignment (R4). -/
def Seen.run (x : Seen) (rest : List Seen) : List Seen := x :: rest.filter (fun y => y.align == x.align)

/-- A cycle can be the first of a candidate: it has the sync pattern, and every cycle that follows it on its alignment
is good (R3, R4). -/
def Seen.candidate (x : Seen) (rest : List Seen) : Prop :=
  x.pattern = 0x3A97 ∧ (x.run rest).IsChain (fun a b => b.pattern = 0x3A97 ∧ b.number = a.number + 1)

/-! ### The alert send list and the table of clashes -/

/-- The send list after a placement: a word of the same entry is replaced in place, any other joins the tail, where the
words of one period ascend by entry (R21). The mark `fresh` of the present period's words is the model's (log entry
12). -/
def SendWord.placedIn (w : SendWord) (l : List SendWord) : List SendWord :=
  let ahead (x : SendWord) : Bool := !x.fresh || decide (x.entry < w.entry)
  if ∃ x ∈ l, x.entry = w.entry then l.map (fun x => if x.entry = w.entry then { w with fresh := x.fresh } else x)
  else l.takeWhile ahead ++ { w with fresh := true } :: l.dropWhile ahead

/-- The source of an insert is active: an input and a zone always, a player in PRIMING or PLAYING, the tx of a call
while it is CONNECTED (R15). -/
def State.activeSource (s : State) : InsertSource → Prop
  | .localInput _ => True
  | .zone _ => True
  | .player p => (s.clips.players[p]).state ≠ .idle
  | .trunkCall id => ∃ c ∈ s.icom.calls, c.id = id ∧ c.state = .connected

/-! ### Players and pages -/

/-- A burst in progress whose words a player will not take, when it is that player's (R100). -/
def Burst.staleFor (b : Burst) (x : Fin 4) : Burst :=
  match b.kind with
  | .playerRead q pos off len stale => { b with kind := .playerRead q pos off len (stale || q == x) }
  | _ => b

/-- The state with another content of a player, its burst in progress no longer its own (R100). -/
def State.withPlayer (s : State) (x : Fin 4) (y : Player) : State :=
  { s with clips := { s.clips with
      players := put s.clips.players x y, burst := s.clips.burst.map (fun b => b.staleFor x) } }

/-- A player given back, if there is one: FIFO and sequence discarded, IDLE from the next period (R100). That its fetch
position is fetched-all is the model's choice (log entry 48). -/
def State.playerFreed (s : State) : Option (Fin 4) → State
  | none => s
  | some x => s.withPlayer x
      { s.clips.players[x] with
        sequence := [], hasChime := false, fetch := none, fifo := [], chimeEnd := .taken, seqEnd := .taken
        releasing := true }

/-- A player handed a sequence (R100). -/
def State.playerHanded (s : State) (x : Fin 4) (sequence : List (Fin 256)) (hasChime : Bool) : State :=
  s.withPlayer x
    { state := .priming, sequence := sequence, hasChime := hasChime, fetch := some (0, 0), fifo := []
      underrun := false, chimeEnd := if hasChime then .ahead else .taken, seqEnd := .ahead, releasing := false }

/-- The state with `n` more grant passes due in the period, one for each cause (R112). That they are due and have not yet
run is the model's choice (log entry 15). -/
def State.passesDue (s : State) (n : Nat) : State := { s with pages := { s.pages with passes := s.pages.passes + n } }

/-- The state with one more grant pass due in the period (R112; log entry 15). -/
def State.passDue (s : State) : State := s.passesDue 1

/-- The state with the page records of an id changed. -/
def State.withPage (s : State) (id : PageId) (f : Page → Page) : State :=
  { s with pages := { s.pages with queue := s.pages.queue.map (fun q => if q.id = id then f q else q) } }

/-- A loss of these zones suspends the record (R116, R118). -/
def Page.suspendedBy (q : Page) (lost : ZoneSet) : Bool :=
  q.granted &&& lost != 0 && (q.whole || q.granted &&& ~~~lost == 0)

/-- A record after a loss of zones (R116, R117). -/
def Page.afterLoss (q : Page) (lost : ZoneSet) : Page :=
  if q.suspendedBy lost then
    { q with
      state := .suspended, granted := 0, joining := 0, player := none, restartIn := none, suspPosted := true }
  else { q with granted := q.granted &&& ~~~lost }

/-- The state after each record has lost zones: the players of the suspended records are given back, and each posts
PAGE SUSPENDED unless it has done so in this period (R112, R116 to R118). That they do so in queue order is the model's
choice (log entry 41). -/
def State.afterLosses (s : State) (lost : Page → ZoneSet) : State :=
  let out := s.pages.queue.filter (fun q => q.suspendedBy (lost q))
  let t := out.foldl (fun t q => t.playerFreed q.player) s
  (out.filter (fun q => !q.suspPosted)).foldl (fun t q => t.withEvent .pageSuspended q.id.toNat 0)
    { t with pages := { s.pages with queue := s.pages.queue.map (fun q => q.afterLoss (lost q)) } }

/-- How many records a loss of zones suspends: each suspension outside a pass is a cause of one (R112). -/
def State.suspendedCount (s : State) (lost : Page → ZoneSet) : Nat :=
  (s.pages.queue.filter (fun q => q.suspendedBy (lost q))).length

/-- The state after a change of coverage, mode or threshold has been handed to the page scheduler: every held zone that
is now covered, or locked against its holder, is lost, and a pass is due for the change and for each record suspended
(R112, R118; log entries 15 and 41). -/
def State.afterHandOff (s : State) : State :=
  (s.afterLosses s.revokedZones).passesDue (1 + s.suspendedCount s.revokedZones)

/-- The state after a record has taken zones from the others (R113, R116). -/
def State.afterTaking (s : State) (p : Page) (zones : ZoneSet) : State :=
  (s.afterLosses (fun q => if q.id = p.id then 0 else zones)).withPage p.id
    (fun q => { q with granted := q.granted ||| zones })

/-- What the end of a page leaves (R122): its player given back, its record out of the queue, PAGE ENDED with the cause
posted, a grant pass due. -/
def State.pageOver (s : State) (p : Page) (cause : Nat) : State :=
  let t := s.playerFreed p.player
  (State.withEvent
    { t with pages := { t.pages with queue := s.pages.queue.filter (fun q => q.id != p.id) } }
    .pageEnded p.id.toNat cause).passDue

/-! ### Ends of calls, and new calls -/

/-- The state with the cue timer of a port's entry set (R133). -/
def State.withCue (s : State) (port : Fin 32) (n : Nat) : State :=
  { s with icom := { s.icom with
      table := put s.icom.table port ((s.icom.table[port]).map (fun e => { e with cueTimer := n, cueDue := false })) } }

/-- The state without the first key event in hand. -/
def State.withKeys (s : State) (keys : List (Fin 32 × Key)) : State := { s with icom := { s.icom with keys := keys } }

/-- The state after the end of a call (R141): its record and its dynamic insert removed, the cue timers of its present
stations 0, and CALL ENDED posted. -/
def State.callOver (s : State) (c : Call) (cause : Nat) : State :=
  State.withEvent
    { s with
      ring := { s.ring with inserts := s.ring.inserts.filter (fun i => i.source != .trunkCall c.id) }
      icom := { s.icom with
        calls := s.icom.calls.filter (fun x => x.id != c.id)
        table := mapTable (fun p (e : Option Station) =>
          if p ∈ c.stations ∧ (s.icom.presence[p]).present = true then
            e.map (fun e => { e with cueTimer := 0, cueDue := false })
          else e) s.icom.table } }
    .callEnded c.id.toNat cause

/-- A call has been created (R135): its id is the first after the last call id that no record holds, its record has
joined the table as it is given, the cue timers of its stations are 0, and nothing else has changed. -/
def State.callCreated (s t : State) (c : Call) : Prop :=
  (∃ d : Nat, d < 255 ∧ c.id = BitVec.ofNat 8 ((s.icom.lastCall.toNat + d) % 255 + 1) ∧
    ∀ k < d, ∃ x ∈ s.icom.calls, x.id = BitVec.ofNat 8 ((s.icom.lastCall.toNat + k) % 255 + 1)) ∧
  (∀ x ∈ s.icom.calls, x.id ≠ c.id) ∧
  (∃ before after : List Call, s.icom.calls = before ++ after ∧
    t = { s with icom := { s.icom with
          calls := before ++ c :: after, lastCall := c.id
          table := mapTable (fun p (e : Option Station) =>
            if p ∈ c.stations then e.map (fun e => { e with cueTimer := 0, cueDue := false }) else e) s.icom.table } })

/-- A new call record (R135). -/
def newRing (id : CallId) (parties : CallParties) (emergency : Bool) (headRef : Word16) (state : CallState) : Call :=
  { id := id, parties := parties, emergency := emergency, headRef := headRef, state := state, answered := false
    tx := none, rx := none, ringTimer := 0, holdTimer := 0 }

/-- The number is that of a port's entry. -/
def State.numberAt (s : State) (n : DirNumber) (port : Fin 32) : Prop :=
  ∃ e, s.icom.table[port] = some e ∧ e.number = n

/-- A watched station of the call listens to a zone under GENERAL coverage (R145). -/
def State.heldNow (s : State) (c : Call) : Prop :=
  ∃ p ∈ c.stations, ∃ (e : Station) (z : Fin 24), s.icom.table[p] = some e ∧ e.listen = some z ∧ s.underGeneral z = true

/-! ### Alarms -/

/-- The entry wins a zone (R165). -/
def Alarm.wins (a : Alarm) (e : Fin 8) : Prop := ∃ z : Fin 24, a.coverage[z] = some e

/-- The alert send list takes a record's state, ON or OFF, when the record broadcasts (R154, R155). -/
def State.sending (s : State) (e : Fin 8) (r : AlarmRec) (on : Bool) : State :=
  if r.broadcast then
    { s with ring := { s.ring with
        sendList := SendWord.placedIn
          { entry := e, on := on, group := r.group, cls := r.cls, pattern := r.pattern, fresh := true }
          s.ring.sendList } }
  else s

/-- A record has started in an entry (R154): it has joined the start order, ALARM BEGUN is posted, ON is placed when it
broadcasts, then coverage is computed anew and handed on. -/
def State.recordStarted (s : State) (e : Fin 8) (r : AlarmRec) : State :=
  let t := State.withEvent
    { s with alarm := { s.alarm with
        records := put s.alarm.records e (some r), startOrder := s.alarm.startOrder.filter (· != e) ++ [e] } }
    .alarmBegun e.val r.cls.rank
  (t.sending e r true).recoverage s.alarm

/-- The record of an entry has ended (R155): the entry is free, the start order and its generator are given up, ALARM
ENDED is posted, OFF is placed when it broadcast, then, when it was SOUNDING, coverage is computed anew and handed
on. -/
def State.recordEnded (s : State) (e : Fin 8) (r : AlarmRec) (cause : Nat) : State :=
  let t := State.withEvent
    { s with alarm := { s.alarm with
        records := put s.alarm.records e none, startOrder := s.alarm.startOrder.filter (· != e)
        generators := mapTable (fun _ (g : Option Generator) => g.filter (fun g => g.entry != e)) s.alarm.generators } }
    .alarmEnded e.val cause
  if r.sounding then (t.sending e r false).recoverage s.alarm else t.sending e r false

/-- One entry's record ranks above another's: by class, and within a class by the earlier start (R165). -/
def Alarm.above (a : Alarm) (e f : Fin 8) : Prop :=
  ∃ r q, a.records[e] = some r ∧ a.records[f] = some q ∧
    (q.cls.rank < r.cls.rank ∨ (q.cls.rank = r.cls.rank ∧ a.startOrder.idxOf e < a.startOrder.idxOf f))

/-! ### The close of a period -/

/-- The state after these commands, one after another. -/
def State.after (s : State) (l : List Instr) : State :=
  l.foldl
    (fun t i =>
      match exec i t with
      | .next u => u
      | _ => t) s

/-- The command of a key event (R134). -/
def keyCommand (p : Fin 32) : Key → Instr
  | .call n => .call p n
  | .answer => .answer p
  | .hangUp => .hangUp p
  | .emergency => .emergency p
  | .pagePress => .pagePress p
  | .pageRelease => .pageRelease p
  | .volumeUp => .volumeUp p
  | .volumeDown => .volumeDown p

/-- The commands of the clip engine's events (R98, R101, R102, R104). -/
def clipEvents : List Instr :=
  [.burstDone] ++ (indices 4).map .playerPrimed ++ [.captureFull, .captureEnd, .captureDone] ++
    (indices 4).map .chimeEnd ++ (indices 4).map .sequenceEnd

/-- The commands of the feed pairs' events and of the end of a crossfade (R80, R86 to R89). -/
def feedEvents : List Instr :=
  (indices 4).flatMap (fun f => [.feedChangeover f, .feedBothLost f, .feedAutoRevert f, .mismatchBlockEnd f]) ++
    [.takeDone]

/-- The commands of the alarm engine's events (R153, R156, R162, R163). -/
def alarmEvents : List Instr :=
  (indices 4).map .contactActivate ++ (indices 4).map .contactClear ++ (indices 8).map .broadcastRefresh ++
    (indices 8).map .notConfirmed ++ (indices 4).map .generatorStepEnd

/-- The commands of the scanner's, the trackers' and the ring interface's events (R16, R22, R172, R173, R182). -/
def lastEvents : List Instr :=
  [.scanStepEnd, .scanRestEnd] ++ (indices 24).map .trackerBlockEnd ++ (indices 64).map .slotClash ++ [.alertSend]

/-- The intercom switch's events: a miss of a slot that is over, losses, key events in hand, cues and calls that have
run out (R131 to R134, R142). -/
def State.callEventsTaken (s : State) : State :=
  let s := if s.icom.slotTime = 0 then s.after (s.icom.awaiting.toList.map .pollMiss) else s
  let s := s.after ((indices 32).map .stationLost)
  let s := s.after (s.icom.keys.map (fun x => keyCommand x.1 x.2))
  let s := s.after ((indices 32).map .cueTimerExpiry)
  s.after (s.icom.calls.flatMap (fun c => [.callNoAnswer c.id, .callHeldTooLong c.id]))

/-- The events of the page records (R121, R123, R124). -/
def State.pageEventsTaken (s : State) : State :=
  s.after (s.pages.queue.flatMap (fun p => [.gapEnd p.id, .pageTimedOut p.id, .pageSourceLost p.id, .pageExpired p.id]))

/-- The state after every event that is due in a period and comes before its grant passes: each event is its command,
and a command whose event is not due changes nothing. The order among them is the model's choice (log entry 2). -/
def State.eventsTaken (s : State) : State :=
  (((s.after clipEvents).after feedEvents).after alarmEvents).callEventsTaken.pageEventsTaken

/-- The WAITING and SUSPENDED records past their wait lives have ended EXPIRED (R123), in queue order. -/
def State.expired (s : State) : State :=
  (s.pages.queue.filter (fun q =>
    q.state != .playing && decide (0 < q.waitLife) && decide (q.waitLife * 48000 ≤ q.waitTimer))).foldl
    (fun t q => t.pageOver q 3) s

/-! ### Invariants -/

/-- Clip memory is in canonical form. -/
def State.memoryOk (s : State) : Prop := Memory.wf s.clips.memory = true

/-- The event list and the request buffer keep to their capacities, and the catch position is occupied only while the
list is full (2.2, R35). -/
def State.controlOk (s : State) : Prop :=
  s.ctl.events.length ≤ 16 ∧ (s.ctl.catchRec.isSome → s.ctl.events.length = 16) ∧ s.ctl.buffer.words.length ≤ 16

/-- The step and the applied factor of a zone's tracker keep to their ranges (R180, R181). -/
def ZoneTracker.inRange (t : ZoneTracker) : Prop :=
  t.settings.kmin ≤ t.k ∧ t.k ≤ t.settings.kmax ∧ t.settings.kmax ≤ 8 ∧ t.settings.kmin ≤ t.settings.seed
    ∧ t.settings.seed ≤ t.settings.kmax ∧ 16384 ≤ t.ce ∧ t.ce ≤ 65226

def State.trackersOk (s : State) : Prop := ∀ z : Fin 24, (s.trackers[z]).inRange

/-- A slot is named by at most one insert (R11). -/
def State.insertsOk (s : State) : Prop := (s.ring.inserts.map (·.slot)).Nodup

/-- The page queue keeps its capacity and its order of priority and, within one priority, of arrival; ids, held zones
and players belong to one record each; a record holds zones of its zone set alone, and one that is not PLAYING holds no
zone and no player (R106, R109, R110, R113, R117). -/
def State.pagesOk (s : State) : Prop :=
  let l := s.pages.queue
  l.length ≤ 32 ∧ (l.map (·.id)).Nodup ∧
  l.Pairwise (fun p q => q.priority < p.priority ∨ (q.priority = p.priority ∧ p.arrival < q.arrival)) ∧
  (∀ p ∈ l, p.arrival < s.pages.nextArrival) ∧
  l.Pairwise (fun p q => p.granted &&& q.granted = 0) ∧
  l.Pairwise (fun p q => p.player = none ∨ p.player ≠ q.player) ∧
  ∀ p ∈ l, p.granted &&& ~~~p.zones = 0 ∧
    (p.state ≠ .playing → p.granted = 0 ∧ p.joining = 0 ∧ p.player = none)

/-- No held zone is covered, and none is locked against its holder (R118), but for a zone that a TAKE of this period has
still to hand to the page scheduler (log entry 14). -/
def State.zonesFree (s : State) : Prop :=
  ∀ p ∈ s.pages.queue, ∀ z : Fin 24, p.granted.getLsbD z.val = true →
    s.covered z = false ∧
    (s.scene.handed.getLsbD z.val = false → ∀ h, (s.zoneFields z).mode = .showLocked h → h ≤ p.priority)

/-- Each record of an alarm entry stands once in the start order, a winning record is SOUNDING, and a generator sounds
one record, no two the same (R154, R155, R165, R166). -/
def State.alarmOk (s : State) : Prop :=
  s.alarm.startOrder.Nodup ∧ (∀ e : Fin 8, e ∈ s.alarm.startOrder ↔ s.alarm.records[e] ≠ none) ∧
  (∀ (z : Fin 24) (e : Fin 8), s.alarm.coverage[z] = some e →
    ∃ r, s.alarm.records[e] = some r ∧ r.sounding = true) ∧
  (∀ (i : Fin 4) (g : Generator), s.alarm.generators[i] = some g → s.alarm.records[g.entry] ≠ none) ∧
  ∀ (i j : Fin 4) (g h : Generator), s.alarm.generators[i] = some g → s.alarm.generators[j] = some h →
    g.entry = h.entry → i = j

/-- What the giving out of coverage rests on: each record stands once in the start order, and a generator sounds one
record, no two the same (R154, R165, R166). Unlike `alarmOk` it says nothing of coverage, which a record that has just
started, ended or been silenced has still to change. -/
def State.recordsOk (s : State) : Prop :=
  s.alarm.startOrder.Nodup ∧ (∀ e : Fin 8, e ∈ s.alarm.startOrder ↔ s.alarm.records[e] ≠ none) ∧
  ∀ (i j : Fin 4) (g h : Generator), s.alarm.generators[i] = some g → s.alarm.generators[j] = some h →
    g.entry = h.entry → i = j

/-- The call table keeps its capacity, and its ids are distinct and ascend (R135). -/
def State.callsOk (s : State) : Prop :=
  s.icom.calls.length ≤ 16 ∧ s.icom.calls.Pairwise (fun a b => a.id.toNat < b.id.toNat)

/-- Each station is a party to at most one call (R135), and no call has one station for both parties. -/
def State.callsApart (s : State) : Prop :=
  s.icom.calls.Pairwise (fun a b => ∀ p ∈ a.stations, p ∉ b.stations) ∧ ∀ c ∈ s.icom.calls, c.stations.Nodup

/-- No CONNECTED call is under hold (R145). -/
def State.holdOk (s : State) : Prop := ∀ c ∈ s.icom.calls, c.state = .connected → ¬ s.heldNow c

end Sys2Proof.Machine
end

