-- ==== Sys2Proof/Certificates/Slice0/Obligations.lean ====
section
/-! DEFINITION. The statements about the VN480, for the provers. Those of the requests speak of an own CLOSE that meets
a LOCKED node with no pending reply and an unmarked buffer (State.asked); the statements on the examination of a CLOSE
say what every other CLOSE does. That a command of an event which is not due leaves the state as it was is the model's
choice (log entry 5), and so is the order in which a period's events happen (log entry 2); a statement that rests on
one of them says so. -/

open Sys2Proof Sys2Proof.Machine

/-! ### Steps, reset and invariants -/

/-- A step takes the command at the front of the queue and executes it with the rest of the queue. -/
def Obligations.StepRunsTheFrontCommand : Prop :=
  ∀ (c : Instr) (s : State) (rest : List Instr),
    step { s with pending := c :: rest } = exec c { s with pending := rest }

/-- POWER_ON and PIN_RESET leave the values that the reset tables give (R23, R40, R51, R72, R83, R90, R105, R128, R150,
R169, R179, R189). Values that no table gives are not stated. That the queue of waiting commands stays is the model's
choice (log entry 32), and the marks blockDone are fields of its own (log entry 12). -/
def Obligations.PowerOnLeavesTheResetValues : Prop :=
  ∀ s : State, ∃ t : State,
    exec .powerOn s = .next t ∧ exec .pinReset s = .next t ∧ t.pending = s.pending ∧
    (t.ring.rx = .hunt ∧ t.ring.goodRun = 0 ∧ t.ring.missCount = 0 ∧ t.ring.cycleNumber = 0 ∧ t.ring.address = 0 ∧
      t.ring.inserts = [] ∧ t.ring.sendList = []) ∧
    (t.ctl.buffer = { words := [], tooLong := false, spoiled := false } ∧ t.ctl.reply = none ∧ t.ctl.events = [] ∧
      t.ctl.catchRec = none ∧ t.ctl.overflow = false ∧
      t.ctl.settings =
        { writeMode := .direct, emergency := 0, ringTimeout := 30, holdLimit := 120, callGain := 16384 }) ∧
    (t.ports.inFormat = .twos ∧ t.ports.outFormat = .twos ∧
      (∀ i : Fin 32, t.ports.inputs[i] = { trim := 0, role := .line }) ∧
      (∀ z : Fin 24, t.ports.channels[z.val] = .zone z) ∧
      (∀ c : Fin 32, 24 ≤ c.val → t.ports.channels[c] = .none) ∧ t.ports.frameOut.measure = 0) ∧
    (t.mix.bankA.routes = [] ∧ t.mix.bankB.routes = [] ∧
      (∀ z : Fin 24,
        t.mix.bankA.fields[z] = { mode := .normal, master := 16384, depth := 4096, attack := 64, release := 8 } ∧
        t.mix.bankB.fields[z] = t.mix.bankA.fields[z] ∧
        t.mix.zoneLocal[z] = { level := 16384, trimStep := 0, trimLimit := 8 } ∧ t.mix.duck[z] = 16384) ∧
      t.scene.active = .a ∧ t.scene.state = .idle ∧ t.scene.target = none) ∧
    (∀ f : Fin 4, t.feeds[f] =
      { main := ⟨2 * f.val, by omega⟩, backup := ⟨2 * f.val + 1, by omega⟩, delay := 4800, autoRevert := false
        tolerance := 65536, state := .onMain, selectedEmpty := 0, bothEmpty := 0, mainPresent := 0, blockPos := 1
        qualifies := true, blockCount := 0, mismatch := false, blockDone := false }) ∧
    ((∀ c : Fin 256, t.clips.directory[c] = none) ∧ t.clips.writeBuffer = none ∧ t.clips.capture.phase = .idle ∧
      t.clips.capture.buffer = [] ∧ (∀ p : Fin 4, (t.clips.players[p]).state = .idle ∧ (t.clips.players[p]).fifo = []) ∧
      t.clips.burst = none ∧ t.pages.queue = []) ∧
    ((∀ p : Fin 32, t.icom.table[p] = none ∧ t.icom.presence[p] = { present := false, misses := 3 }) ∧
      t.icom.calls = [] ∧ t.icom.lastCall = 0 ∧ t.icom.nextPort = 0) ∧
    ((∀ p : Fin 7, ∀ i : Fin 16, (t.alarm.patterns[p])[i] = none) ∧
      (∀ g : Fin 8, t.alarm.groups[g] = BitVec.allOnes 24 ∧ t.alarm.records[g] = none) ∧
      (∀ k : Fin 4, t.alarm.contacts[k] =
          { cls := .general, group := 0, pattern := 0, broadcast := true, active := false, run := 0 } ∧
        t.alarm.generators[k] = none) ∧
      t.alarm.startOrder = [] ∧ (∀ z : Fin 24, t.alarm.coverage[z] = none)) ∧
    (t.lines.settings = { top := 31, burst := 0, rest := 0 } ∧ t.lines.pendingSet = none ∧
      t.lines.scanner = .stopped ∧
      ∀ c : Fin 32, t.lines.faults[c] = .ok ∧ t.lines.windows[c] = { enabled := false, low := 0, high := 4094 }) ∧
    ∀ z : Fin 24, t.trackers[z] =
      { settings :=
          { percentile := 50, quiet := 4, slope := 1, kmin := 0, kmax := 0, rise := 10, fall := 50, seed := 0 }
        k := 0, ce := 16384, position := 1, hist0 := Vector.replicate 16 0, hist1 := Vector.replicate 16 0
        freezeSeen := false, freezeTail := 0, up := 0, down := 0, last := none, blockDone := false }

/-- Clip memory keeps its canonical form through every step. That the form bounds addresses by 4,194,304 rests on log
entry 22 (addresses count modulo the size of the memory, DEDUCED), and that it lists no word of 0 on log entry 4 (an
unwritten word reads 0, the model's choice). -/
def Obligations.ClipMemoryStaysCanonical : Prop :=
  ∀ s t : State, s.memoryOk → step s = .next t → t.memoryOk

/-- Every step keeps these invariants: the event list holds at most 16 records, the catch position holds one only while
the list is full, and the request buffer holds at most 16 words (R27, R35); the step and the applied factor of every
tracker keep to their ranges (R180, R181); a slot is named by at most one insert (R11); each alarm record stands once
in the start order, a winning record is SOUNDING, and no two generators sound one record (R154, R155, R165, R166). -/
def Obligations.StepsKeepTheInvariants : Prop :=
  ∀ s t : State, step s = .next t →
    (s.controlOk → t.controlOk) ∧ (s.trackersOk → t.trackersOk) ∧ (s.insertsOk → t.insertsOk) ∧
    (s.alarmOk → t.alarmOk)

/-- The state after reset meets the ten invariants. -/
def Obligations.ResetMeetsTheInvariants : Prop :=
  State.reset.memoryOk ∧ State.reset.controlOk ∧ State.reset.trackersOk ∧ State.reset.insertsOk ∧
    State.reset.alarmOk ∧ State.reset.pagesOk ∧ State.reset.zonesFree ∧ State.reset.callsOk ∧ State.reset.callsApart ∧
    State.reset.holdOk

/-! ### Control words and the examination of a CLOSE -/

/-- Outside LOCKED no control word is acted on: in SUSPECT it is forwarded unchanged, in HUNT it changes nothing, the
control slot of the cycle that the node generates included (R7, R8, R24). In LOCKED a CLOSE of another address, and a
universal CLOSE of a code that no node executes, are forwarded unchanged and clear the request buffer (R24, R28, R34),
under the rows CLOSE_OTHER and UNIVERSAL_CLOSE_FORWARDED as under any other. That a CLOSE has the meaning of its
address and code under every row is the model's choice (log entry 21). -/
def Obligations.WordsForOthersOnlyPass : Prop :=
  (∀ (i : Instr) (w : BitVec 32) (s : State), lineWord i = some w →
    (s.ring.rx = .hunt → exec i s = .next s) ∧
    (s.ring.rx = .suspect → exec i s = .next (s.withControl w))) ∧
  (∀ (i : Instr) (code : BitVec 8) (a : NodeAddr) (low : BitVec 8) (s : State),
    closeOf i = some (code, a, low) → s.ring.rx = .locked →
    ((a ≠ 0 ∧ a ≠ s.ring.address) ∨ (a = 0 ∧ code ∉ universalCodes)) →
    exec i s = .next (s.withControl (controlWord .close a (code ++ low))).withClearBuffer) ∧
  ∀ (a : NodeAddr) (p : BitVec 16) (s : State), s.ring.rx = .locked →
    (a ≠ 0 → a ≠ s.ring.address →
      exec (.closeOther a p) s = .next (s.withControl (controlWord .close a p)).withClearBuffer) ∧
    (p.extractLsb' 8 8 ∉ universalCodes →
      exec (.universalCloseForwarded p) s = .next (s.withControl (controlWord .close 0 p)).withClearBuffer)

/-- An own CLOSE that meets a pending reply executes nothing, is replaced by FAULT OVERLAP, clears the buffer and
leaves the pending reply (R32). Any other own CLOSE is examined in order: a SPOILED buffer gives CHECK, a code outside
the table UNKNOWN (the row UNKNOWN_REQUEST), a TOO LONG buffer or a wrong number of words BAD LENGTH; nothing is
executed in any of them (R29). That a CLOSE has the meaning of its address and code under every row is the model's
choice (log entry 21). -/
def Obligations.OwnClosesAreExaminedInOrder : Prop :=
  (∀ (s : State) (a : NodeAddr) (r : Reply), s.ring.rx = .locked → a ≠ 0 → a = s.ring.address → s.ctl.reply = some r →
    (∀ (i : Instr) (code low : BitVec 8), closeOf i = some (code, a, low) →
      exec i s = .next (s.withControl
        (controlWord .fault a ((2 : BitVec 8) ++ a ++ (0 : BitVec 2)))).withClearBuffer) ∧
    ∀ payload : BitVec 16, exec (.ownCloseDiscarded payload) s =
      .next (s.withControl (controlWord .fault a ((2 : BitVec 8) ++ a ++ (0 : BitVec 2)))).withClearBuffer) ∧
  (∀ (s : State) (a : NodeAddr) (code low : BitVec 8), s.own a → s.ctl.buffer.spoiled = false →
    code ∉ requestCodes → exec (.unknownRequest a code low) s = .next (s.answered code .unknown [])) ∧
  ∀ (i : Instr) (code : BitVec 8) (a : NodeAddr) (low : BitVec 8) (s : State),
    closeOf i = some (code, a, low) → s.own a →
    (s.ctl.buffer.spoiled = true → exec i s = .next (s.answered code .check [])) ∧
    (s.ctl.buffer.spoiled = false → code ∉ requestCodes → exec i s = .next (s.answered code .unknown [])) ∧
    (s.ctl.buffer.spoiled = false → code ∈ requestCodes →
      (s.ctl.buffer.tooLong = true ∨ s.ctl.buffer.words.length < (wordCounts code).1 ∨
        (wordCounts code).2 < s.ctl.buffer.words.length) →
      exec i s = .next (s.answered code .badLength []))

/-- Every executed or refused request leaves one status; a status other than OK and ACCEPTED leaves every piece of
state as it was and no REPLY words, and OK and ACCEPTED bring the number of REPLY words of the table (R30, 2.8.5). -/
def Obligations.RefusedRequestsChangeNothing : Prop :=
  ∀ (i : Instr) (code : BitVec 8) (a : NodeAddr) (low : BitVec 8) (s : State),
    requestOf i = some (code, a, low) → s.own a →
    ∃ (t : State) (status : Status) (ws : List Word16), exec i s = .next t ∧
      t.ctl.reply = some { words := ws, code := code, status := status } ∧
      (status ≠ .ok → status ≠ .accepted → t = s.answered code status []) ∧
      (status = .ok ∨ status = .accepted → ws.length = replyCount code s.ctl.events.length)

/-- A parameter word outside what its request allows and does not clamp gives OUT OF RANGE, before every other check of
the request (the first row of the check tables). -/
def Obligations.OperandsOutOfRangeAreRefused : Prop :=
  ∀ (i : Instr) (code : BitVec 8) (a : NodeAddr) (low : BitVec 8) (ws : List Word16) (s : State),
    requestOf i = some (code, a, low) → s.asked a ws → (wordCounts code).1 ≤ ws.length →
    ws.length ≤ (wordCounts code).2 → outOfRange code ws = true →
    exec i s = .next (s.answered code .outOfRange [])

/-- A PARAM word is forwarded and, when its address is 0 or the node's own, collected: appended to the request buffer,
or dropped with the buffer marked TOO LONG when it holds 16 words (R27). One of another address is forwarded only
(R24), and an own one that meets a pending reply is replaced by FAULT OVERLAP and not collected (R32). -/
def Obligations.ParamWordsAreCollected : Prop :=
  ∀ (s : State) (a : NodeAddr) (d : Word16), s.ring.rx = .locked →
    (a ≠ 0 → a ≠ s.ring.address → exec (.paramWord a d) s = .next (s.withControl (controlWord .param a d))) ∧
    (a ≠ 0 → a = s.ring.address → s.ctl.reply.isSome = true →
      exec (.paramWord a d) s =
        .next (s.withControl (controlWord .fault a ((2 : BitVec 8) ++ a ++ (0 : BitVec 2))))) ∧
    ((a = 0 ∨ (a = s.ring.address ∧ s.ctl.reply = none)) →
      let t := s.withControl (controlWord .param a d)
      exec (.paramWord a d) s = .next { t with
        ctl := { s.ctl with
          buffer :=
            if s.ctl.buffer.words.length < 16 then { s.ctl.buffer with words := s.ctl.buffer.words ++ [d] }
            else { s.ctl.buffer with tooLong := true } } })

/-- An ECHO word is forwarded and clears the buffer; a FAULT word is forwarded, and FAULT CHECK marks the buffer
SPOILED when its address is the node's own or 0 or the buffer holds a word; FAULT OVERLAP does not (R26, R28). A bad
word is not acted on, is replaced by FAULT CHECK with its address field and the node's address, and marks the buffer
SPOILED under the same condition (R25). The next word of a pending reply goes into the slot of an arriving IDLE word,
REPLY words first and the ECHO last, with the node's present address; the ECHO carries code, status and the
events-pending flag, and ends the reply. With no reply the IDLE word is forwarded (R24, R31). Beside this the check of
a control word and its layout: kind, address, payload, check (2.1, R41). -/
def Obligations.EchoFaultBadAndIdleWordsPassOn : Prop :=
  (∀ body : BitVec 25, controlCheck body = (List.range 25).foldl (fun (r : BitVec 7) n =>
    if body.getLsbD (24 - n) = r.getLsbD 6 then r <<< 1 else (r <<< 1) ^^^ 0x09) 0) ∧
  (∀ (kind : WordKind) (a : NodeAddr) (p : BitVec 16),
    let code : BitVec 3 := match kind with
      | .idle => 0
      | .param => 1
      | .close => 2
      | .reply => 3
      | .echo => 4
      | .fault => 5
    controlWord kind a p = code ++ a ++ p ++ controlCheck (code ++ a ++ p)) ∧
  ∀ s : State, s.ring.rx = .locked →
    let spoil (t : State) (a : NodeAddr) : State :=
      if a = s.ring.address ∨ a = 0 ∨ s.ctl.buffer.words ≠ [] then
        { t with ctl := { s.ctl with buffer := { s.ctl.buffer with spoiled := true } } }
      else t
    (∀ (a : NodeAddr) (p : BitVec 16),
      exec (.echoWord a p) s = .next (s.withControl (controlWord .echo a p)).withClearBuffer ∧
      (p.extractLsb' 8 8 = 1 →
        exec (.faultWord a p) s = .next (spoil (s.withControl (controlWord .fault a p)) a)) ∧
      (p.extractLsb' 8 8 ≠ 1 → exec (.faultWord a p) s = .next (s.withControl (controlWord .fault a p))) ∧
      (s.ctl.reply = none → exec (.sendReplyWord a p) s = .next (s.withControl (controlWord .idle a p))) ∧
      (∀ (w : Word16) (rest : List Word16) (code : BitVec 8) (st : Status),
        s.ctl.reply = some { words := w :: rest, code := code, status := st } →
        exec (.sendReplyWord a p) s = .next { s.withControl (controlWord .reply s.ring.address w) with
          ctl := { s.ctl with reply := some { words := rest, code := code, status := st } } }) ∧
      (∀ (code : BitVec 8) (st : Status), s.ctl.reply = some { words := [], code := code, status := st } →
        exec (.sendReplyWord a p) s = .next { s.withControl (controlWord .echo s.ring.address
            (code ++ st.code ++ BitVec.ofBool (decide (s.ctl.events ≠ [])) ++ (0 : BitVec 2))) with
          ctl := { s.ctl with reply := none } })) ∧
    ∀ w : BitVec 32,
      (w.extractLsb' 0 7 ≠ controlCheck (w.extractLsb' 7 25) ∨ 6 ≤ (w.extractLsb' 29 3).toNat) →
      let a : NodeAddr := w.extractLsb' 23 6
      exec (.badControlWord w) s = .next
        (spoil (s.withControl (controlWord .fault a ((1 : BitVec 8) ++ s.ring.address ++ (0 : BitVec 2)))) a)

/-! ### Requests on the node as a whole -/

/-- READ EVENTS returns and removes the oldest records, at most 7, then takes in the catch record, counts what remains,
and reports and clears OVERFLOW (R36). -/
def Obligations.ReadEventsReturnsTheOldest : Prop :=
  ∀ (s : State) (a : NodeAddr) (low : BitVec 8), s.asked a [] →
    let taken := s.ctl.events.take 7
    let left := s.ctl.events.drop 7 ++ s.ctl.catchRec.toList
    let count : Word16 := BitVec.ofNat 3 (min 7 s.ctl.events.length) ++ BitVec.ofNat 5 left.length ++
      BitVec.ofBool s.ctl.overflow ++ (0 : BitVec 7)
    exec (.readEvents a low) s = .next (State.answered
      { s with ctl := { s.ctl with events := left, catchRec := none, overflow := false } } 0x04 .ok
      (count :: taken.flatMap (fun e => [e.kind.code ++ e.detail ++ e.stamp, e.subject])))

/-- IDENTIFY reports the part's twelve words and changes nothing (R37). SET NODE takes the five settings together, with
its clamps, and changes nothing else; when the period of its execution closes they are the node's settings, so they
apply from the next cycle on (R38). That they stand apart until then is the model's own record (log entry 12). -/
def Obligations.IdentifyReportsAndSetNodeSets : Prop :=
  ∀ (s : State) (a : NodeAddr) (low : BitVec 8),
    (s.asked a [] → exec (.identify a low) s = .next (s.answered 0x03 .ok
      [0x0480, 3, 24, 256, 32, 256, 4096, 32, 16, 32, 8, 0x0404])) ∧
    (∀ (staged : Bool) (number ring hold gain : Word16), number.toNat ≤ 9999 →
      s.asked a [word staged.toNat, number, ring, hold, gain] →
      exec (.setNode a low) s = .next (State.answered
        { s with ctl := { s.ctl with
            incoming := some
              { writeMode := if staged then .staged else .direct
                emergency := BitVec.ofNat 14 number.toNat
                ringTimeout := min 120 (max 1 ring.toNat)
                holdLimit := min 600 (max 10 hold.toNat)
                callGain := gain.toNat } } } 0x06 .ok [])) ∧
    (closePeriod s).ctl.settings = s.ctl.incoming.getD s.ctl.settings ∧ (closePeriod s).ctl.incoming = none

/-- ENROLL as a universal CLOSE: forwarded by a NAMED node and by one with a pending reply; otherwise consumed, with
CHECK, BAD LENGTH, OUT OF RANGE, or the new address and the words of IDENTIFY (R18). A universal RELEASE ALL with a
clear buffer makes the node UNNAMED and ends its trunk calls with their inserts, each with CALL ENDED and the cause
RELEASED (R142); it is forwarded, and static inserts, receiver, send list, local calls, pages, alarms and tables stay.
With words or a mark in the buffer it is only forwarded (R19, R34). As own CLOSES of the right length both are NOT
ALLOWED (R34). Call ids are distinct in the table (R135). -/
def Obligations.EnrollAndReleaseAllSetTheAddress : Prop :=
  ∀ (s : State) (low : BitVec 8), s.ring.rx = .locked →
    ((s.ring.address ≠ 0 ∨ s.ctl.reply.isSome = true) →
      exec (.enroll 0 low) s = .next (s.withControl (controlWord .close 0 ((1 : BitVec 8) ++ low))).withClearBuffer) ∧
    (s.ring.address = 0 → s.ctl.reply = none →
      (s.ctl.buffer.spoiled = true → exec (.enroll 0 low) s = .next (s.answered 0x01 .check [])) ∧
      (s.ctl.buffer.spoiled = false → (s.ctl.buffer.words.length ≠ 1 ∨ s.ctl.buffer.tooLong = true) →
        exec (.enroll 0 low) s = .next (s.answered 0x01 .badLength [])) ∧
      (∀ n : Word16, s.ctl.buffer = { words := [n], tooLong := false, spoiled := false } →
        (n.toNat = 0 ∨ 63 < n.toNat → exec (.enroll 0 low) s = .next (s.answered 0x01 .outOfRange [])) ∧
        (1 ≤ n.toNat → n.toNat ≤ 63 →
          exec (.enroll 0 low) s = .next (State.answered
            { s with ring := { s.ring with address := BitVec.ofNat 6 n.toNat } } 0x01 .ok
            [0x0480, 3, 24, 256, 32, 256, 4096, 32, 16, 32, 8, 0x0404])))) ∧
    (∀ (a : NodeAddr) (n : Word16), s.asked a [n] → exec (.enroll a low) s = .next (s.answered 0x01 .notAllowed [])) ∧
    (s.ctl.buffer = { words := [], tooLong := false, spoiled := false } → (s.icom.calls.map (·.id)).Nodup →
      ∃ t : State, exec (.releaseAll 0 low) s = .next t ∧ t.ring.address = 0 ∧
        t.ring.forward = (s.withControl (controlWord .close 0 ((2 : BitVec 8) ++ low))).ring.forward ∧
        t.icom.calls = s.icom.calls.filter (fun c => !c.trunk) ∧
        (∀ c ∈ s.icom.calls, c.trunk = true → ∀ i ∈ t.ring.inserts, i.source ≠ .trunkCall c.id) ∧
        t.ring.inserts.filter Insert.static = s.ring.inserts.filter Insert.static ∧
        t.ring.rx = s.ring.rx ∧ t.ring.cycleNumber = s.ring.cycleNumber ∧ t.ring.sendList = s.ring.sendList ∧
        t.ctl.reply = s.ctl.reply ∧ t.ctl.settings = s.ctl.settings ∧ t.ctl.incoming = s.ctl.incoming ∧
        t.ctl.buffer = s.ctl.buffer ∧
        t.ctl = ((s.icom.calls.filter Call.trunk).foldl
          (fun v c => v.withEvent .callEnded c.id.toNat 8) s).ctl ∧
        t.ports = s.ports ∧ t.mix = s.mix ∧ t.scene = s.scene ∧ t.feeds = s.feeds ∧ t.clips = s.clips ∧
        t.pages = s.pages ∧ t.alarm = s.alarm ∧ t.lines = s.lines ∧ t.trackers = s.trackers) ∧
    ((s.ctl.buffer.words ≠ [] ∨ s.ctl.buffer.tooLong = true ∨ s.ctl.buffer.spoiled = true) →
      exec (.releaseAll 0 low) s =
        .next (s.withControl (controlWord .close 0 ((2 : BitVec 8) ++ low))).withClearBuffer) ∧
    (∀ a : NodeAddr, s.asked a [] → exec (.releaseAll a low) s = .next (s.answered 0x02 .notAllowed []))

/-- RESET NODE: the parts of every block, and the single NODE RESET event with the numbers of pages and calls ended
(R39, R69, R83, R99, R100, R105, R128, R150, R169, R179, R187, R189). The player of every page is given back; settings
that a SET NODE of the period has taken are kept. Choices of the model: with a burst of 0 the burst count and the
position are set too (log entry 43), a player given back has fetched-all as its fetch position (log entry 48), and the
miss count becomes 0 also where a third miss of the period has still to make its port ABSENT (log entry 50). -/
def Obligations.ResetNodeResetsTheBlocks : Prop :=
  ∀ (s : State) (a : NodeAddr) (low : BitVec 8), s.asked a [] →
    ∃ t : State, exec (.resetNode a low) s = .next t ∧
      (t.ctl.reply = some { words := [], code := 0x05, status := .ok } ∧
        t.ctl.buffer = { words := [], tooLong := false, spoiled := false } ∧ t.ctl.settings = s.ctl.settings ∧
        t.ctl.incoming = s.ctl.incoming ∧
        t.ctl.events =
          [{ kind := .nodeReset, stamp := s.ring.cycleNumber.extractLsb' 9 7
             subject := word (256 * s.pages.queue.length + s.icom.calls.length), detail := 0 }] ∧
        t.ctl.catchRec = none ∧ t.ctl.overflow = false) ∧
      (t.ring.rx = s.ring.rx ∧ t.ring.cycleNumber = s.ring.cycleNumber ∧ t.ring.address = s.ring.address ∧
        t.ring.sendList = s.ring.sendList ∧
        t.ring.inserts.filter Insert.static = s.ring.inserts.filter Insert.static ∧
        (∀ c ∈ s.icom.calls, ∀ i ∈ t.ring.inserts, i.source ≠ .trunkCall c.id)) ∧
      (t.ports = s.ports ∧ t.mix.bankA = s.mix.bankA ∧ t.mix.bankB = s.mix.bankB ∧
        t.mix.zoneLocal = s.mix.zoneLocal ∧ (∀ z : Fin 24, t.mix.duck[z] = 16384) ∧ t.feeds = s.feeds) ∧
      (t.scene.state = .idle ∧ t.scene.target = none ∧
        t.scene.active = if s.scene.state = .waiting then s.scene.active.other else s.scene.active) ∧
      (t.clips.memory = s.clips.memory ∧ t.clips.writeBuffer = s.clips.writeBuffer ∧ t.clips.capture.phase = .idle ∧
        t.clips.capture.buffer = [] ∧
        ∀ c : Fin 256, t.clips.directory[c] =
          if s.clips.capture.phase ≠ .idle ∧ c = s.clips.capture.clip then
            (s.clips.directory[c]).map (fun e => { e with used := 0, state := .empty })
          else s.clips.directory[c]) ∧
      (s.pagesOk → ∀ x : Fin 4,
        t.clips.players[x] =
          (if s.pages.queue.any (fun p => p.player == some x) then
            { s.clips.players[x] with
              sequence := [], hasChime := false, fetch := none, fifo := [], chimeEnd := .taken, seqEnd := .taken
              releasing := true }
          else s.clips.players[x])) ∧
      (t.pages.queue = [] ∧ t.icom.calls = [] ∧ t.icom.lastCall = s.icom.lastCall ∧ t.icom.nextPort = 0 ∧
        ∀ p : Fin 32, (t.icom.presence[p]).present = (s.icom.presence[p]).present ∧ (t.icom.presence[p]).misses = 0 ∧
          t.icom.table[p] = (s.icom.table[p]).map (fun e => { e with cueTimer := 0, cueDue := false })) ∧
      (t.alarm = s.alarm ∧ t.lines.faults = s.lines.faults ∧ t.lines.windows = s.lines.windows ∧
        t.lines.settings = s.lines.pendingSet.getD s.lines.settings ∧ t.lines.pendingSet = none ∧
        t.lines.burstCount = 0 ∧ t.lines.position = t.lines.settings.top ∧
        t.lines.scanner = if t.lines.settings.burst = 0 then .stopped else .choosing) ∧
      ∀ z : Fin 24, t.trackers[z] =
        { s.trackers[z] with
          k := (s.trackers[z]).settings.seed, position := 1, hist0 := Vector.replicate 16 0
          hist1 := Vector.replicate 16 0, freezeSeen := false, freezeTail := 0, up := 0, down := 0, last := none
          blockDone := false }

/-! ### The deck ring -/

/-- Each arriving cycle the receiver reads moves it among HUNT, LOCKED and SUSPECT as good or bad (R3 to R6). A
candidate that fails sends the search back to the cycle after its first, over what the receiver has been shown since:
the first cycle there whose followers on its alignment are all good becomes the candidate, and with none the search
goes on (R4). A cycle that is not read changes nothing, but that a receiver with a candidate keeps it for its search.
The node cycle number is the one read in LOCKED and SUSPECT, that of the fourth miss included (R9). The taps stay as
they are until the computation of the period reads the cycle (R10). Leaving LOCKED fails a capture that is WAITING
SOUND or RECORDING, CAPTURE FAILED with detail 2 and its entry EMPTY (R99). The clash count of every insert moves: up
to 48 by one while its slot carries a sample, 0 where it is empty, as it was while its source is not active, and 0
outside LOCKED; the inserts of trunk calls go on entering HUNT (R16, R142). That the number of the fourth miss is kept
is log entry 8, and that the taps wait for the computation is log entry 10 (both DEDUCED). That the search goes over
whole cycles, that the fourth bad cycle is no candidate of the search it begins, and that the period before is closed
by the arrival, are the model's choices (log entries 7, 52 and 2), and so are the clip, slot and counts of the capture
record left IDLE (log entry 40). -/
def Obligations.ArrivalsMoveTheReceiver : Prop :=
  ∀ (s : State) (align : Fin 1626) (c : RingCycle),
    let r := s.ring
    let good := c.pattern = 0x3A97 ∧ c.number = r.prevNumber + 1
    let shown : Seen := { align := align, pattern := c.pattern, number := c.number }
    let searching := r.rx = .hunt ∧ r.goodRun = 0
    let read := (searching ∧ c.pattern = 0x3A97) ∨ (¬ searching ∧ align = r.alignment)
    (¬ read → (r.rx ≠ .hunt ∨ searching) → exec (.cycleArrival align c) s = .next s) ∧
    (¬ read → r.rx = .hunt → ¬ searching →
      exec (.cycleArrival align c) s = .next { s with ring := { r with stream := r.stream ++ [shown] } }) ∧
    (read → ∃ t : State, exec (.cycleArrival align c) s = .next t ∧
      t.ring.arrived = some c ∧ t.ring.taps = r.taps ∧ t.ctl.settings = s.ctl.incoming.getD s.ctl.settings ∧
      (t.ring.rx ≠ .hunt ∨ r.rx = .suspect → t.ring.cycleNumber = c.number) ∧
      (r.rx = .hunt → t.ring.rx = .hunt → t.ring.cycleNumber = r.cycleNumber) ∧
      (r.rx ≠ .hunt ∨ good → t.ring.prevNumber = c.number) ∧
      (r.rx = .locked → good → t.ring.rx = .locked ∧ t.ring.missCount = r.missCount) ∧
      (r.rx = .locked → ¬ good →
        t.ring.rx = .suspect ∧ t.ring.missCount = 1 ∧ t.ring.goodRun = 0 ∧
        t.ctl.buffer = { words := [], tooLong := false, spoiled := false }) ∧
      (r.rx = .suspect → good → r.goodRun = 0 →
        t.ring.rx = .suspect ∧ t.ring.missCount = 0 ∧ t.ring.goodRun = 1) ∧
      (r.rx = .suspect → good → r.goodRun = 1 → t.ring.rx = .locked ∧ t.ring.goodRun = 2) ∧
      (r.rx = .suspect → ¬ good → r.missCount ≤ 2 →
        t.ring.rx = .suspect ∧ t.ring.missCount = r.missCount + 1 ∧ t.ring.goodRun = 0) ∧
      (r.rx = .suspect → ¬ good → r.missCount = 3 →
        t.ring.rx = .hunt ∧ t.ring.missCount = 4 ∧ t.ring.goodRun = 0 ∧ t.ring.stream = []) ∧
      (searching →
        t.ring.rx = .hunt ∧ t.ring.goodRun = 1 ∧ t.ring.alignment = align ∧ t.ring.prevNumber = c.number ∧
        t.ring.stream = [shown]) ∧
      (r.rx = .hunt → good → 1 ≤ r.goodRun → r.goodRun ≤ 6 →
        t.ring.rx = .hunt ∧ t.ring.goodRun = r.goodRun + 1 ∧ t.ring.alignment = r.alignment ∧
        t.ring.stream = r.stream ++ [shown]) ∧
      (r.rx = .hunt → good → r.goodRun = 7 → t.ring.rx = .locked ∧ t.ring.missCount = 0 ∧ t.ring.goodRun = 8) ∧
      (r.rx = .hunt → ¬ good → 1 ≤ r.goodRun →
        let l := (r.stream ++ [shown]).tail
        t.ring.rx = .hunt ∧
        (∀ (before : List Seen) (x : Seen) (rest : List Seen), l = before ++ x :: rest → x.candidate rest →
          (∀ b1 y b2, before = b1 ++ y :: b2 → ¬ y.candidate (b2 ++ x :: rest)) →
          t.ring.goodRun = (x.run rest).length ∧ t.ring.alignment = x.align ∧ t.ring.stream = x :: rest ∧
          (x.run rest).getLast?.map (·.number) = some t.ring.prevNumber) ∧
        ((∀ (before : List Seen) (x : Seen) (rest : List Seen), l = before ++ x :: rest → ¬ x.candidate rest) →
          t.ring.goodRun = 0 ∧ t.ring.stream = []))) ∧
    (read → ∃ t u : State, exec (.cycleArrival align c) s = .next t ∧ u = closePeriod s ∧
      (r.rx = .locked → ¬ good →
        let v : State := { u with ring := { u.ring with cycleNumber := c.number } }
        let k := u.clips.capture
        (k.phase = .waitingSound ∨ k.phase = .recording →
          t.ctl = (v.withClearBuffer.withEvent .captureFailed k.clip.val 2).ctl ∧
          t.clips = { u.clips with
            directory := put u.clips.directory k.clip
              ((u.clips.directory[k.clip]).map (fun e => { e with used := 0, state := .empty }))
            capture := Capture.idle }) ∧
        (k.phase = .idle ∨ k.phase = .closing → t.ctl = v.withClearBuffer.ctl ∧ t.clips = u.clips)) ∧
      (r.rx ≠ .locked ∨ good → t.clips = u.clips) ∧
      (t.ring.rx = .locked →
        t.ring.inserts.length = u.ring.inserts.length ∧
        ∀ (n : Nat) (i : Insert), u.ring.inserts[n]? = some i →
          (u.activeSource i.source → t.ring.inserts[n]? =
            some { i with clash := if c.slots[i.slot] = 0x800000 then 0 else min 48 (i.clash + 1) }) ∧
          (¬ u.activeSource i.source → t.ring.inserts[n]? = some i)) ∧
      (t.ring.rx ≠ .locked →
        let ended (i : Insert) : Bool := u.icom.calls.any (fun x => x.trunk && i.source == .trunkCall x.id)
        t.ring.inserts =
          (if r.rx = .suspect ∧ t.ring.rx = .hunt then u.ring.inserts.filter (fun i => !ended i)
            else u.ring.inserts).map (fun i => { i with clash := 0 })))

/-- With no event due in the period before it, the fourth bad cycle posts RING LOST, discards a pending reply and ends
every trunk call and its insert, each with CALL ENDED and the cause RING LOST, while local calls go on (R6, R7, R33,
R142); the cycle that completes a lock from HUNT posts RING REGAINED (R4). With a full event list all go the way of any
event (R35). That RING LOST comes before the CALL ENDED records is the model's choice (log entry 46). That the events
due in the period before come first is its choice too (log entry 2), kept out by a premise; that the rows RING_LOST and
RING_REGAINED are that arrival itself is log entry 6 (DEDUCED), and that RING LOST carries the number of the fourth
miss as its stamp is log entry 8 (DEDUCED). -/
def Obligations.RingLostAndRegainedArePosted : Prop :=
  ∀ (s : State) (align : Fin 1626) (c : RingCycle), closePeriod s = s → align = s.ring.alignment →
    let good := c.pattern = 0x3A97 ∧ c.number = s.ring.prevNumber + 1
    let u : State := { s with ring := { s.ring with cycleNumber := c.number } }
    (s.ring.rx = .suspect → s.ring.missCount = 3 → ¬ good → s.callsOk →
      ∃ t : State, exec (.ringLost align c) s = .next t ∧ t.ring.rx = .hunt ∧
        t.ctl = { ((s.icom.calls.filter Call.trunk).foldl (fun v x => v.withEvent .callEnded x.id.toNat 7)
          (u.withEvent .ringLost 0 0)).ctl with reply := none } ∧
        t.icom.calls = s.icom.calls.filter (fun x => !x.trunk) ∧
        (∀ x ∈ s.icom.calls, x.trunk = true → ∀ i ∈ t.ring.inserts, i.source ≠ .trunkCall x.id) ∧
        t.pages = s.pages ∧ t.alarm = s.alarm ∧ t.mix = s.mix) ∧
    (s.ring.rx = .hunt → s.ring.goodRun = 7 → good →
      ∃ t : State, exec (.ringRegained align c) s = .next t ∧ t.ring.rx = .locked ∧ t.ring.missCount = 0 ∧
        t.ctl = (u.withEvent .ringRegained 0 0).ctl ∧
        t.icom = s.icom ∧ t.pages = s.pages ∧ t.alarm = s.alarm ∧ t.mix = s.mix ∧ t.clips = s.clips)

/-- The alert slot of an arriving cycle: a wrong check, kind 3, kind EMPTY, an origin of 0 and a word of the node's own
address leave the slot free; an accepted word is forwarded with its hop count incremented, or at 63 not at all; in
SUSPECT it is forwarded unchanged, in HUNT nothing is read (R7, R8, R20). A free alert slot of a NAMED node takes the
oldest word of the send list, with the node's address, hop count 0 and its check (R22). An insert whose clash count has
reached 48 reports once, and one that has reported posts nothing more (R16). Beside this the check of an alert word
(R41). -/
def Obligations.AlertSlotsAndSlotClash : Prop :=
  (∀ body : BitVec 22, alertCheck body = (List.range 22).foldl (fun (r : BitVec 4) n =>
    if body.getLsbD (21 - n) = r.getLsbD 3 then r <<< 1 else (r <<< 1) ^^^ 0x3) 0) ∧
  ∀ s : State,
    (∀ w : BitVec 26,
      let kind := w.extractLsb' 24 2
      let origin : NodeAddr := w.extractLsb' 18 6
      let hop : BitVec 6 := w.extractLsb' 4 6
      let accepted := w.extractLsb' 0 4 = alertCheck (w.extractLsb' 4 22) ∧ (kind = 1 ∨ kind = 2) ∧ origin ≠ 0 ∧
        origin ≠ s.ring.address
      let free : State := { s with ring := { s.ring with
        forward := { s.ring.forward with cycle := { s.ring.forward.cycle with alert := 0 }, alertFree := true } } }
      (s.ring.rx = .hunt → exec (.alertWordArrival w) s = .next s) ∧
      (s.ring.rx = .suspect → exec (.alertWordArrival w) s = .next { s with ring := { s.ring with
        forward := { s.ring.forward with cycle := { s.ring.forward.cycle with alert := w }, alertFree := false } } }) ∧
      (s.ring.rx = .locked → ¬ accepted → exec (.alertWordArrival w) s = .next free) ∧
      (s.ring.rx = .locked → accepted → hop.toNat ≤ 62 → ∃ t : State, exec (.alertWordArrival w) s = .next t ∧
        t.ring.forward.alertFree = false ∧
        t.ring.forward.cycle.alert =
          (let body : BitVec 22 := w.extractLsb' 10 16 ++ (hop + 1)
           body ++ alertCheck body)) ∧
      (s.ring.rx = .locked → accepted → hop = 63 → ∃ t : State, exec (.alertWordArrival w) s = .next t ∧
        t.ring.forward.alertFree = true ∧ t.ring.forward.cycle.alert = 0)) ∧
    (∀ (w : SendWord) (rest : List SendWord), s.ring.forward.alertFree = true → s.ring.address ≠ 0 →
      s.ring.sendList = w :: rest →
      let body : BitVec 22 := (if w.on then 1 else 2 : BitVec 2) ++ s.ring.address ++ BitVec.ofNat 3 w.group.val ++
        BitVec.ofNat 2 w.cls.rank ++ BitVec.ofNat 3 w.pattern.val ++ (0 : BitVec 6)
      exec .alertSend s = .next { s with ring := { s.ring with
        sendList := rest
        forward := { s.ring.forward with
          cycle := { s.ring.forward.cycle with alert := body ++ alertCheck body }, alertFree := false } } }) ∧
    (∀ (slot : Fin 64) (i : Insert), s.ring.inserts.find? (fun x => x.slot == slot) = some i → i.clash = 48 →
      i.reported = false →
      exec (.slotClash slot) s = .next (State.withEvent
        { s with ring := { s.ring with
            inserts := s.ring.inserts.map (fun x => if x.slot = slot then { x with reported := true } else x) } }
        .slotClash slot.val
        (match i.source with
          | .localInput _ => 1
          | .zone _ => 2
          | .player _ => 3
          | .trunkCall _ => 4))) ∧
    (∀ (slot : Fin 64) (i : Insert), s.ring.inserts.find? (fun x => x.slot == slot) = some i → i.reported = true →
      exec (.slotClash slot) s = .next s)

/-- An accepted ON word refreshes the REMOTE record of its origin and group, a held generator of it restarting when the
pattern changes; without one it starts a record in the lowest free shared entry; with none free it displaces the latest
started record of the lowest class among the shared ones, when that class is below the word's, ALARM ENDED before ALARM
BEGUN, and is ignored otherwise (R163, R164). An accepted OFF word ends the record, and one without a record is ignored
(R163). Other records stay in their entries. Coverage is computed anew and handed on after a start, after the end of a
SOUNDING record, and after a refresh that changes the class or pattern of a SOUNDING record or makes one SOUNDING
(R154, R155, R163, R165), as CoverageFollowsTheRecords says; a word of the send list keeps its entry's place (R21).
That the event of a record comes before those of the pages its coverage suspends is the model's choice (log entry 46),
and the marks of the send list are its own record (log entry 12). -/
def Obligations.AlertWordsMoveRemoteRecords : Prop :=
  ∀ (s : State) (w : BitVec 26) (cls : AlarmClass), s.alarmOk → s.ring.rx = .locked →
    let a := s.alarm
    let kind := w.extractLsb' 24 2
    let origin : NodeAddr := w.extractLsb' 18 6
    let group : Fin 8 := (w.extractLsb' 15 3).toFin
    let pattern : Fin 8 := (w.extractLsb' 10 3).toFin
    cls.rank = (w.extractLsb' 13 2).toNat → w.extractLsb' 0 4 = alertCheck (w.extractLsb' 4 22) →
    kind = 1 ∨ kind = 2 → origin ≠ 0 → origin ≠ s.ring.address →
    let mine (e : Fin 8) : Prop := ∃ r, a.records[e] = some r ∧ r.origin = .remote origin group
    let fresh : AlarmRec :=
      { origin := .remote origin group, cls := cls, group := group, pattern := pattern, voiceSlot := none
        voiceFactor := 4096, broadcast := false, sounding := true, refreshTimer := 0, broadcastTimer := 0 }
    let started (e : Fin 8) (t : State) : Prop :=
      t.alarm.records = put a.records e (some fresh) ∧ t.alarm.startOrder = a.startOrder.filter (· != e) ++ [e]
    ∃ t : State, exec (.alertWordArrival w) s = .next t ∧
      let leaves (u : State) : Prop := t = { u with ring := { u.ring with forward := t.ring.forward } }
      (∀ (e : Fin 8) (r : AlarmRec), a.records[e] = some r → mine e → (∀ f : Fin 8, f < e → ¬ mine f) →
        (kind = 1 →
          let q : AlarmRec := { r with
            refreshTimer := 0, cls := cls, pattern := pattern, sounding := r.sounding || cls == .general }
          let u : State := { s with alarm := { a with
            records := put a.records e (some q)
            generators := mapTable (fun _ (g : Option Generator) => g.map (fun g =>
              if g.entry = e ∧ g.pattern ≠ pattern then
                { entry := e, pattern := pattern, step := 0, elapsed := 0, position := 0, divider := 0 }
              else g)) a.generators } }
          leaves (if q.sounding = true ∧ (r.cls ≠ cls ∨ r.pattern ≠ pattern ∨ r.sounding = false) then u.recoverage a
            else u) ∧
          t.alarm.records = put a.records e (some q) ∧ t.alarm.startOrder = a.startOrder ∧
          ∀ (i : Fin 4) (g g' : Generator), a.generators[i] = some g → g.entry = e →
            t.alarm.generators[i] = some g' → g'.entry = e →
            (g.pattern = pattern → g' = g) ∧
            (g.pattern ≠ pattern → g' =
              { entry := e, pattern := pattern, step := 0, elapsed := 0, position := 0, divider := 0 })) ∧
        (kind = 2 → leaves (s.recordEnded e r 3) ∧ t.alarm.records = put a.records e none ∧
          t.alarm.startOrder = a.startOrder.filter (· != e) ∧
          (s.ctl.events.length < 16 → (s.withEvent .alarmEnded e.val 3).ctl.events <+: t.ctl.events))) ∧
      ((∀ e : Fin 8, ¬ mine e) →
        (kind = 2 → leaves s) ∧
        (kind = 1 →
          (∀ e : Fin 8, 4 ≤ e.val → a.records[e] = none → (∀ f : Fin 8, 4 ≤ f.val → f < e → a.records[f] ≠ none) →
            leaves (s.recordStarted e fresh) ∧ started e t ∧ t.ring.sendList = s.ring.sendList ∧
            (s.ctl.events.length < 16 →
              (s.withEvent .alarmBegun e.val cls.rank).ctl.events <+: t.ctl.events)) ∧
          (∀ (e : Fin 8) (r : AlarmRec), 4 ≤ e.val → a.records[e] = some r →
            (∀ f : Fin 8, 4 ≤ f.val → a.records[f] ≠ none) →
            (∀ f : Fin 8, 4 ≤ f.val → f ≠ e → a.above f e) →
            (cls.rank ≤ r.cls.rank → leaves s) ∧
            (r.cls.rank < cls.rank → leaves ((s.recordEnded e r 5).recordStarted e fresh) ∧ started e t ∧
              (r.broadcast = false → t.ring.sendList = s.ring.sendList) ∧
              (r.broadcast = true → t.ring.sendList = SendWord.placedIn
                { entry := e, on := false, group := r.group, cls := r.cls, pattern := r.pattern, fresh := true }
                s.ring.sendList) ∧
              (s.ctl.events.length < 16 → ∃ l : List EventRec,
                t.ctl.events = (s.withEvent .alarmEnded e.val 5).ctl.events ++ l ∧
                ({ kind := .alarmBegun, stamp := s.ring.cycleNumber.extractLsb' 9 7, subject := word e.val
                   detail := BitVec.ofNat 4 cls.rank } ∈ l ∨ t.ctl.overflow = true))))))

/-- SET INSERT and CLEAR INSERT with their whole check tables, a buffer marked TOO LONG being a wrong number of words
(R12, R13). -/
def Obligations.InsertRequestsFollowTheirTables : Prop :=
  (∀ (s : State) (a : NodeAddr) (low : BitVec 8), s.own a → s.ctl.buffer.spoiled = false →
    s.ctl.buffer.tooLong = true →
    exec (.setInsert a low) s = .next (s.answered 0x10 .badLength []) ∧
    exec (.clearInsert a low) s = .next (s.answered 0x11 .badLength [])) ∧
  ∀ (s : State) (a : NodeAddr) (low : BitVec 8) (ws : List Word16), s.asked a ws →
    (ws.length ≠ 2 → exec (.setInsert a low) s = .next (s.answered 0x10 .badLength [])) ∧
    (ws.length ≠ 1 → exec (.clearInsert a low) s = .next (s.answered 0x11 .badLength [])) ∧
    (∀ w0 w1 : Word16, ws = [w0, w1] → outOfRange 0x10 ws = true →
      exec (.setInsert a low) s = .next (s.answered 0x10 .outOfRange [])) ∧
    (∀ (t : Fin 64) (src : InsertSource) (w : Word16), insertWord src = some w → ws = [word t.val, w] →
      exec (.setInsert a low) s = .next (
        if s.ring.inserts.any (fun i => i.slot == t) then s.answered 0x10 .conflict []
        else if 32 ≤ (s.ring.inserts.filter Insert.static).length then s.answered 0x10 .full []
        else State.answered { s with ring := { s.ring with
          inserts := s.ring.inserts ++ [{ slot := t, source := src, clash := 0, reported := false }] } } 0x10 .ok [])) ∧
    (∀ w : Word16, ws = [w] → 63 < w.toNat →
      exec (.clearInsert a low) s = .next (s.answered 0x11 .outOfRange [])) ∧
    (∀ t : Fin 64, ws = [word t.val] →
      exec (.clearInsert a low) s = .next (
        if s.ring.inserts.any (fun i => i.slot == t && !i.static) then s.answered 0x11 .inUse []
        else if s.ring.inserts.all (fun i => i.slot != t) then s.answered 0x11 .notFound []
        else State.answered { s with ring := { s.ring with
          inserts := s.ring.inserts.filter (fun i => i.slot != t) } } 0x11 .ok []))

/-- One cycle period: the input samples of the computation are those of this period's input frame (R45), and the
computation of the period before moves one place up the pipeline. The output frame carries the computation made two
periods before, by the role of each channel and 0 on a channel in FAULT(SHORT) (R43, R44, R48, R177), and the measure
flag of the channel being stepped alone (R50, R172). The cycle determined before is sent, an insert's slot carrying its
source's sample of that same computation, every other slot unchanged (R2, R15). The taps read the slots of the cycle
arrived in the period while LOCKED, and the empty marker otherwise (R7, R10). The arrived cycle is to be sent next, or
in HUNT a generated one with the next number (R2, R8, R9). The settings of a SET NODE hold from then on (R38). That a
LOCKED or SUSPECT node that no cycle has reached reads markers and generates is the model's choice (log entry 9), and
so are the words that the arrived cycle takes over unchanged until their own commands act on them (log entry 36) and
that the events of the period before come first (log entry 2). That the commands of a period come in this order is log
entry 10, and that an insert is judged with the computation whose sample it writes is log entry 13 (both DEDUCED). -/
def Obligations.CyclePeriodSendsAndComputes : Prop :=
  ∀ (s : State) (frame : Vector RawSample 32) (contacts : BitVec 4),
    let u := if s.ring.arrived.isSome then s else closePeriod s
    let f := u.ring.forward
    ∃ t : State, exec (.cyclePeriod frame contacts) s = .next t ∧
      t.older = s.recent ∧
      (∀ i : Fin 32,
        let v : Int := match s.ports.inFormat with
          | .twos => (frame[i]).toInt
          | .offset => (frame[i]).toNat - 8388608
        let w : Int := if v = -8388608 then -8388607 else v
        t.ports.samples[i] =
          max (-8388607) (min 8388607 (w * ((2 ^ (s.ports.inputs[i]).trim.val : Nat) : Int))) ∧
        t.recent.inputs[i] = t.ports.samples[i]) ∧
      (∀ c : Fin 32,
        let x : Int :=
          match t.lines.faults[c], s.ports.channels[c] with
          | .fault .short _, _ => 0
          | _, .zone z => s.older.zones[z]
          | _, .station p => s.older.speakers[p]
          | _, .none => s.older.noneOut
        t.ports.frameOut.words[c] =
          (match s.ports.outFormat with
            | .twos => BitVec.ofInt 24 x
            | .offset => BitVec.ofInt 24 (x + 8388608)) ∧
        (t.ports.frameOut.measure.getLsbD c.val = true ↔ t.lines.scanner = .stepping c)) ∧
      (∃ c : RingCycle, t.ring.sent = some c ∧ c.pattern = f.cycle.pattern ∧ c.number = f.cycle.number ∧
        c.control = f.cycle.control ∧ c.alert = f.cycle.alert ∧
        (∀ k : Fin 64, (∀ i ∈ t.ring.inserts, i.slot ≠ k) → c.slots[k] = f.cycle.slots[k]) ∧
        ∀ i ∈ t.ring.inserts, (∀ j ∈ t.ring.inserts, j.slot = i.slot → j = i) →
          c.slots[i.slot] = BitVec.ofInt 24 (match i.source with
            | .localInput n => s.older.inputs[n]
            | .zone z => s.older.zones[z]
            | .player p => s.older.players[p]
            | .trunkCall id => ((s.older.trunks.find? (fun x => x.1 == id)).map (·.2)).getD (-8388608))) ∧
      (∀ k : Fin 64, t.tap k =
        match s.ring.rx, s.ring.arrived with
        | .locked, some c => (c.slots[k]).toInt
        | _, _ => -8388608) ∧
      t.ring.cycleNumber = (if f.generated = true ∧ s.ring.rx = .hunt then f.cycle.number else s.ring.cycleNumber) ∧
      t.ring.forward =
        (match s.ring.rx, s.ring.arrived with
          | .locked, some c => { cycle := c, alertFree := false, generated := false }
          | .suspect, some c => { cycle := c, alertFree := false, generated := false }
          | _, _ =>
            { cycle :=
                { pattern := 0x3A97, number := t.ring.cycleNumber + 1, control := 0, alert := 0
                  slots := Vector.replicate 64 0x800000 }
              alertFree := true, generated := true }) ∧
      t.ring.arrived = none ∧ t.ring.rx = s.ring.rx ∧ t.ring.address = s.ring.address ∧
      t.ports.inFormat = s.ports.inFormat ∧ t.ports.outFormat = s.ports.outFormat ∧
      t.ports.inputs = s.ports.inputs ∧ t.ports.channels = s.ports.channels ∧
      t.ctl.settings = u.ctl.settings ∧ t.ctl.incoming = u.ctl.incoming ∧ t.ctl.reply = s.ctl.reply ∧
      t.ctl.buffer = s.ctl.buffer ∧
      t.mix.bankA = s.mix.bankA ∧ t.mix.bankB = s.mix.bankB ∧ t.pending = s.pending

/-! ### Local ports -/

/-- SET PORT, SET INPUT and SET CHANNEL with operands in range: the setting replaced, CONFLICT for a sense position
another input holds, IN USE for the speaker channel of a station, and the changed sense zones handed to the tracker
(R44, R46, R47, R49). -/
def Obligations.PortRequestsReplaceOneSetting : Prop :=
  ∀ (s : State) (a : NodeAddr) (low : BitVec 8),
    (∀ output offset : Bool, s.asked a [word output.toNat, word offset.toNat] →
      let f : PortFormat := if offset then .offset else .twos
      exec (.setPort a low) s = .next (State.answered
        { s with ports := if output then { s.ports with outFormat := f } else { s.ports with inFormat := f } }
        0x18 .ok [])) ∧
    (∀ (i : Fin 32) (trim : Fin 4) (r : InputRole), s.asked a [word i.val, word trim.val, inputWord r] →
      let taken := ∃ j : Fin 32, j ≠ i ∧ r ≠ .line ∧ (s.ports.inputs[j]).role = r
      let old := (s.ports.inputs[i]).role
      (taken → exec (.setInput a low) s = .next (s.answered 0x19 .conflict [])) ∧
      (¬ taken → exec (.setInput a low) s = .next (State.answered
        { s with
          ports := { s.ports with inputs := put s.ports.inputs i { trim := trim, role := r } }
          trackers := mapTable (fun z (x : ZoneTracker) =>
            if old ≠ r ∧ (senseZone old = some z ∨ senseZone r = some z) then
              { x with
                position := 1, hist0 := Vector.replicate 16 0, hist1 := Vector.replicate 16 0
                freezeSeen := false, blockDone := false }
            else x) s.trackers } 0x19 .ok []))) ∧
    (∀ (c : Fin 32) (r : ChannelRole), s.asked a [word c.val, channelWord r] →
      let used := ∃ (p : Fin 32) (e : Station), s.icom.table[p] = some e ∧ e.speaker = c ∧ r ≠ .station p
      (used → exec (.setChannel a low) s = .next (s.answered 0x1A .inUse [])) ∧
      (¬ used → exec (.setChannel a low) s = .next (State.answered
        { s with ports := { s.ports with channels := put s.ports.channels c r } } 0x1A .ok [])))

/-- Input samples, zone outputs, covered or not, speaker samples, player samples, generator samples, the NONE output
and the samples of trunk calls lie in the sample range, so none is the empty marker; only a player that is no source
leaves the marker in a computation (R15, R42, R45, R64, R103, R146, R153, R167, R168). Stated of the stages, and of the
computation that CYCLE_PERIOD leaves. -/
def Obligations.SamplesStayInTheSampleRange : Prop :=
  let inRange (x : Int) : Prop := -8388607 ≤ x ∧ x ≤ 8388607
  (∀ (f : PortFormat) (trim : Fin 4) (w : RawSample), inRange (inputStage f trim w)) ∧
  (∀ (w : ClipWord) (trim : Nat), inRange (playerSample w trim)) ∧
  (∀ (g : Generator) (p : PatternStep), inRange (g.sample p)) ∧
  ∀ (s t : State) (frame : Vector RawSample 32) (contacts : BitVec 4), exec (.cyclePeriod frame contacts) s = .next t →
    (∀ z : Fin 24, inRange t.recent.zones[z]) ∧ (∀ p : Fin 32, inRange t.recent.speakers[p]) ∧
    inRange t.recent.noneOut ∧ (∀ i : Fin 32, inRange t.recent.inputs[i]) ∧
    (∀ p : Fin 4, t.recent.players[p] = -8388608 ∨ inRange t.recent.players[p]) ∧
    ∀ x ∈ t.recent.trunks, inRange x.2

/-! ### Zone mixing -/

/-- One computation, in the state b in which its period has begun: the duck factor takes one step toward its target
(R67, R68, R167), the applied factor of the tracker glides by at most 16 (R181), an uncovered zone's output is formed
from its routes, its page and its factors, blended while a TAKE is crossfading (R53, R62 to R65, R79), and a covered
zone's output is that of its winning record, with the samples of the generator that it holds or, ranked fifth or lower,
shares with the first-ranked one (R66, R166, R167). That b is the state after the events of the period before is the
model's choice (log entry 2). -/
def Obligations.ComputationsFollowTheMixRules : Prop :=
  ∀ (s : State) (frame : Vector RawSample 32) (contacts : BitVec 4),
    let b := s.begun
    ∃ t : State, exec (.cyclePeriod frame contacts) s = .next t ∧ ∀ z : Fin 24,
      let active := b.mix.bank b.scene.active
      let edit := b.mix.bank b.scene.active.other
      let f := active.fields[z]
      let quiet (x : Int) : Int := if x = -8388608 then 0 else x
      let clamped (x : Int) : Int := max (-8388607) (min 8388607 x)
      let target : Nat := match b.winner z with
        | some (_, r) =>
          (match r.voiceSlot with
            | some v => if b.tap v = -8388608 then 16384 else r.voiceFactor
            | none => 16384)
        | none => if (b.holder z).any Page.audible then f.depth else 16384
      let d := b.mix.duck[z]
      let factor := [16384, 19472, 23143, 27505, 32690, 38853, 46176, 54881, 65226].getD (b.trackers[z]).k 65226
      let ce := (b.trackers[z]).ce
      (target < d → t.mix.duck[z] = max target (d - f.attack)) ∧
      (d < target → t.mix.duck[z] = min target (d + f.release)) ∧ (d = target → t.mix.duck[z] = d) ∧
      (ce < factor → (t.trackers[z]).ce = min factor (ce + 16)) ∧
      (factor < ce → (t.trackers[z]).ce = max factor (ce - 16)) ∧ (ce = factor → (t.trackers[z]).ce = ce) ∧
      (b.winner z = none →
        let value : RouteSource → Int
          | .ringSlot x => quiet (b.tap x)
          | .localInput i => t.recent.inputs[i]
          | .feed p => match (b.feeds[p]).state with
            | .onMain => quiet (b.tap (b.feeds[p]).main)
            | .onBackup => quiet (b.tap (b.feeds[p]).backup)
            | .bothLost => 0
        let sum (role : RouteRole) (x : Bank) : Int :=
          if (x.fields[z]).mode = .off then 0
          else ((x.routes.filter (fun r => r.zone == z && r.role == role)).map
            (fun r => value r.source * (r.gain : Int))).sum
        let mixed (g : Bank → Int) : Int :=
          if b.scene.state = .crossfading then
            (2 * (g edit * ((b.scene.length - b.scene.step : Nat) : Int) + g active * (b.scene.step : Int)) +
              (b.scene.length : Int)) / (2 * (b.scene.length : Int))
          else g active
        let played (p : Page) : Int := (p.player.map (fun x => t.recent.players[x])).getD 0
        let page (p : Page) : Int := if p.phase = .chime then played p else match p.source with
          | .clips _ => played p
          | .liveSlot x => b.tap x
          | .liveInput i => t.recent.inputs[i]
        let a : Int := match b.holder z with
          | some p => if p.audible then quiet (page p) * (p.gain : Int) else 0
          | none => 0
        let tk := [16384, 13785, 11599, 9759, 8211, 6909, 5813, 4891, 4115].getD (b.mix.zoneLocal[z]).trimStep 4115
        let dt : Int := ((t.mix.duck[z] * tk : Nat) + 8192) / 16384
        let pm := (mixed (sum .programme) * dt + 134217728) / 268435456
        let sm := (mixed (sum .showAudio) + 8192) / 16384
        let am := (a * ((t.trackers[z]).ce : Int) + 134217728) / 268435456
        let m := mixed (fun x => ((x.fields[z]).master : Int))
        t.recent.zones[z] = clamped (((pm + sm + am) * m + 8192) / 16384)) ∧
      (∀ (e : Fin 8) (r : AlarmRec) (h : Fin 8) (i : Fin 4) (g : Generator), b.alarmOk → b.winner z = some (e, r) →
        ((h = e) ∨ ((∀ (j : Fin 4) (x : Generator), b.alarm.generators[j] = some x → x.entry ≠ e) ∧ b.alarm.wins h ∧
          ∀ f : Fin 8, b.alarm.wins f → f ≠ h → b.alarm.above h f)) →
        b.alarm.generators[i] = some g → g.entry = h →
        let tone := g.sample (b.alarm.stepAt g.pattern g.step)
        let voice : Int := (r.voiceSlot.map (fun x => quiet (b.tap x))).getD 0
        let full := (b.mix.zoneLocal[z]).level
        let level : Nat := if r.cls = .test then (full * 4096 + 8192) / 16384 else full
        t.recent.zones[z] =
          clamped (((tone * (t.mix.duck[z] : Int) + voice * 16384) * (level : Int) + 134217728) / 268435456))

/-- The speaker samples, the NONE output and the trunk samples of one computation, in the state b in which its period
has begun: a covered listen zone before a break-in, a call and the listen zone (R146), with the call gain in force
(R38); the alarm formula of the earliest SOUNDING GENERAL record at level 16,384, with the duck factor of the first
zone of its group, and 0 without one (R168); the mic sample of party A of each CONNECTED trunk call (R147). That b is
the state after the events of the period before is the model's choice (log entry 2). -/
def Obligations.SpeakersNoneOutputAndTrunksAreFormed : Prop :=
  ∀ (s : State) (frame : Vector RawSample 32) (contacts : BitVec 4),
    let b := s.begun
    ∃ t : State, exec (.cyclePeriod frame contacts) s = .next t ∧
      let k := t.recent
      let quiet (x : Int) : Int := if x = -8388608 then 0 else x
      let clamped (x : Int) : Int := max (-8388607) (min 8388607 x)
      let mic (p : Fin 32) : Int := match b.icom.table[p] with
        | some e => k.inputs[e.mic]
        | none => 0
      let gained (x : Int) : Int := clamped ((x * (t.ctl.settings.callGain : Int) + 8192) / 16384)
      (∀ p : Fin 32, b.icom.table[p] = none → k.speakers[p] = 0) ∧
      (∀ (p : Fin 32) (e : Station), b.icom.table[p] = some e →
        let zl : Int := match e.listen with
          | some z => k.zones[z]
          | none => 0
        let underAlarm := e.listen.any b.covered
        let brokenIn := e.listen.any (fun z => (b.holder z).any (fun q => q.audible && decide (e.breakIn ≤ q.priority)))
        (underAlarm = true → k.speakers[p] = zl) ∧
        (b.stationState p ≠ .talking → k.speakers[p] = zl) ∧
        ∀ c : Call, underAlarm = false → b.stationState p = .talking → b.callOf p = some c →
          (c.state ≠ .connected → k.speakers[p] = 0) ∧
          (c.state = .connected → brokenIn = true → k.speakers[p] = zl) ∧
          (c.state = .connected → brokenIn = false →
            (∀ x y, c.parties = .loc x y → k.speakers[p] = gained (mic (if p = x then y else x))) ∧
            ((∀ x y, c.parties ≠ .loc x y) →
              k.speakers[p] = gained ((c.rx.map (fun r => quiet (b.tap r))).getD 0)))) ∧
      (let general (e : Fin 8) (r : AlarmRec) : Prop :=
         b.alarm.records[e] = some r ∧ r.sounding = true ∧ r.cls = .general
       ((∀ (e : Fin 8) (r : AlarmRec), ¬ general e r) → k.noneOut = 0) ∧
       ∀ (e : Fin 8) (r : AlarmRec) (z : Fin 24) (i : Fin 4) (g : Generator), b.alarmOk → general e r →
         (∀ (f : Fin 8) (q : AlarmRec), general f q → f ≠ e → b.alarm.above e f) →
         (b.alarm.groups[r.group]).getLsbD z.val = true →
         (∀ y < z, (b.alarm.groups[r.group]).getLsbD y.val = false) →
         b.alarm.generators[i] = some g → g.entry = e →
         let tone := g.sample (b.alarm.stepAt g.pattern g.step)
         let voice : Int := (r.voiceSlot.map (fun x => quiet (b.tap x))).getD 0
         k.noneOut = clamped (((tone * (t.mix.duck[z] : Int) + voice * 16384) * 16384 + 134217728) / 268435456)) ∧
      k.trunks = (b.icom.calls.filter (fun c => c.trunk && c.state == .connected)).map (fun c =>
        (c.id, match c.parties with
          | .loc x _ => mic x
          | .trunkOut x _ => mic x
          | .trunkIn x _ => mic x))

/-- LOAD ROUTE and CLEAR ROUTE with operands in range, on the bank the write mode selects, that of a SET NODE executed
before in the period included: BUSY, FULL and NOT FOUND, an entry replaced, created or removed, and nothing else
changed (R52 to R56). -/
def Obligations.RouteRequestsWriteOneEntry : Prop :=
  ∀ (s : State) (a : NodeAddr) (low : BitVec 8) (z : Fin 24) (src : RouteSource),
    let mode := (s.ctl.incoming.getD s.ctl.settings).writeMode
    let id := if mode = .direct then s.scene.active else s.scene.active.other
    let b := s.mix.bank id
    let busy := mode = .staged ∧ s.scene.state ≠ .idle
    let key (r : Route) : Prop := r.zone = z ∧ r.source = src
    (∀ (gain : Word16) (show_ : Bool), s.asked a [word z.val, routeWord src, gain, word show_.toNat] →
      let x : Route :=
        { zone := z, source := src, gain := gain.toNat, role := if show_ then .showAudio else .programme }
      (busy → exec (.loadRoute a low) s = .next (s.answered 0x20 .busy [])) ∧
      (¬ busy → (∀ r ∈ b.routes, ¬ key r) → 256 ≤ b.routes.length →
        exec (.loadRoute a low) s = .next (s.answered 0x20 .full [])) ∧
      (¬ busy → (∀ r ∈ b.routes, ¬ key r) → b.routes.length < 256 →
        exec (.loadRoute a low) s = .next (State.answered
          { s with mix := s.mix.setBank id { b with routes := b.routes ++ [x] } } 0x20 .ok [])) ∧
      (¬ busy → (∃ r ∈ b.routes, key r) →
        ∃ rs : List Route, exec (.loadRoute a low) s = .next (State.answered
            { s with mix := s.mix.setBank id { b with routes := rs } } 0x20 .ok []) ∧
          rs.length = b.routes.length ∧ ∀ n : Nat, ∀ r : Route, b.routes[n]? = some r →
            (key r → rs[n]? = some x) ∧ (¬ key r → rs[n]? = some r))) ∧
    (s.asked a [word z.val, routeWord src] →
      (busy → exec (.clearRoute a low) s = .next (s.answered 0x21 .busy [])) ∧
      (¬ busy → (∀ r ∈ b.routes, ¬ key r) → exec (.clearRoute a low) s = .next (s.answered 0x21 .notFound [])) ∧
      (¬ busy → (∃ r ∈ b.routes, key r) → exec (.clearRoute a low) s = .next (State.answered
        { s with
          mix := s.mix.setBank id { b with routes := b.routes.filter (fun r => !(r.zone == z && r.source == src)) } }
        0x21 .ok [])))

/-- SET ZONE writes the five clamped fields into the bank of the write mode, and hands a DIRECT change of mode or
threshold to the page scheduler, which revokes at once and has a grant pass due for the change and for each page that
this suspends (R112, R118); SET ZONE LOCAL writes its three clamped fields; READ ZONE reports six words and changes
nothing (R56 to R59, R70). That the passes are only made due, that pages suspended together post in queue order, and
that a player given back has nothing to fetch are the model's choices (log entries 15, 41 and 48). -/
def Obligations.ZoneRequestsWriteClampedFields : Prop :=
  ∀ (s : State) (a : NodeAddr) (low : BitVec 8) (z : Fin 24),
    (∀ (mode h master depth attack release : Word16) (m : ZoneMode), modeWords mode h m →
      s.asked a [word z.val, mode, h, master, depth, attack, release] →
      let direct := (s.ctl.incoming.getD s.ctl.settings).writeMode = .direct
      let id := if direct then s.scene.active else s.scene.active.other
      let b := s.mix.bank id
      let f : ZoneBank :=
        { mode := m, master := min 16384 master.toNat, depth := min 16384 depth.toNat
          attack := min 16384 (max 1 attack.toNat), release := min 16384 (max 1 release.toNat) }
      let t : State := { s with mix := s.mix.setBank id { b with fields := put b.fields z f } }
      (¬ direct → s.scene.state ≠ .idle → exec (.setZone a low) s = .next (s.answered 0x22 .busy [])) ∧
      (¬ direct → s.scene.state = .idle → exec (.setZone a low) s = .next (t.answered 0x22 .ok [])) ∧
      (direct → (b.fields[z]).mode = m → exec (.setZone a low) s = .next (t.answered 0x22 .ok [])) ∧
      (direct → (b.fields[z]).mode ≠ m → s.pagesOk →
        exec (.setZone a low) s = .next (t.afterHandOff.answered 0x22 .ok []))) ∧
    (∀ level step limit : Word16, s.asked a [word z.val, level, step, limit] →
      exec (.setZoneLocal a low) s = .next (State.answered
        { s with mix := { s.mix with
            zoneLocal := put s.mix.zoneLocal z
              { level := min 16384 level.toNat, trimStep := min step.toNat (min 8 limit.toNat)
                trimLimit := min 8 limit.toNat } } } 0x23 .ok [])) ∧
    (s.asked a [word z.val] →
      exec (.readZone a low) s = .next (s.answered 0x24 .ok
        [ (match ((s.mix.bank s.scene.active).fields[z]).mode with
            | .normal => word 0
            | .showLocked h => word (1 + 256 * h)
            | .off => word 2),
          word ((s.mix.bank s.scene.active).fields[z]).master, word s.mix.duck[z],
          ((s.holder z).map (·.id)).getD 0,
          word (((s.winner z).map (fun x => x.2.cls.rank + 1)).getD 0 + if s.scene.active = .b then 256 else 0),
          word (s.trackers[z]).ce ]))

/-! ### Scene banks and feed pairs -/

/-- TAKE is taken when the TAKE record is IDLE, addressed or universal, with its clamped length and its target;
otherwise it is refused with BUSY, or silently. COPY BANK copies the active bank into the edit bank when IDLE (R34,
R75, R76). -/
def Obligations.TakeAndCopyBankFollowTheTakeRecord : Prop :=
  ∀ (s : State) (a : NodeAddr) (low : BitVec 8),
    (∀ (length : Word16) (target : Option Word16),
      let ws := length :: target.toList
      let t : State := { s with scene := { s.scene with
        state := .waiting, length := min 4800 length.toNat, target := target
        start := if target = none then .now else .no, lastDone := false } }
      let sent (x : State) : State :=
        (x.withControl (controlWord .close 0 ((0x28 : BitVec 8) ++ low))).withClearBuffer
      (s.asked a ws → exec (.take a low) s =
        .next (if s.scene.state = .idle then t.answered 0x28 .accepted [] else s.answered 0x28 .busy [])) ∧
      (s.ring.rx = .locked → s.ctl.buffer = { words := ws, tooLong := false, spoiled := false } →
        exec (.take 0 low) s = .next (if s.scene.state = .idle then sent t else sent s))) ∧
    (s.asked a [] → exec (.copyBank a low) s = .next (
      if s.scene.state = .idle then State.answered
        { s with mix := s.mix.setBank s.scene.active.other (s.mix.bank s.scene.active) } 0x29 .ok []
      else s.answered 0x29 .busy []))

/-- A waiting TAKE with a target is due when a LOCKED cycle of that number arrives, and one that is not yet due starts
in the next period when the receiver leaves LOCKED (R77). A TAKE that is due swaps the banks and enters CROSSFADING
with step 1, or with length 0 completes at once; each computation takes the step one further, and the one with step T
is the last (R78, R79). After it a crossfade completes: the record returns to IDLE and TAKE DONE carries the bank now
active (R80). That the pages stay as they are at the start, and the zones changed are handed to the page scheduler at
the end of the period, is log entry 14 (DEDUCED); that the step of a completed record is 0 and its length stays is the
model's choice (log entry 47), and so is that the period's beginning is read in the state after the events of the
period before (log entry 2). -/
def Obligations.TakesStartAndComplete : Prop :=
  ∀ s : State,
    let bankNumber (bank : BankId) : Nat := if bank = .a then 0 else 1
    (∀ z : Fin 24, s.changedModes.getLsbD z.val = true ↔
      (s.activeBank.fields[z]).mode ≠ (s.editBank.fields[z]).mode) ∧
    (∀ (align : Fin 1626) (c : RingCycle), s.ring.reads align c = true → s.scene.state = .waiting →
      ∃ t : State, exec (.cycleArrival align c) s = .next t ∧
        t.scene = { s.scene with
          start :=
            if t.ring.rx = .locked ∧ s.scene.target = some c.number then .now
            else if s.ring.rx = .locked ∧ t.ring.rx ≠ .locked ∧ s.scene.start = .no then .next
            else s.scene.start }) ∧
    (s.scene.state = .waiting → s.scene.start = .now → 0 < s.scene.length →
      exec .takeStart s = .next { s with scene := { s.scene with
        active := s.scene.active.other, state := .crossfading, step := 1, start := .no
        handed := s.scene.handed ||| s.changedModes } }) ∧
    (s.scene.state = .waiting → s.scene.start = .now → s.scene.length = 0 →
      exec .takeStart s = .next (State.withEvent { s with scene := { s.scene with
        active := s.scene.active.other, state := .idle, target := none, step := 0, start := .no, lastDone := false
        handed := s.scene.handed ||| s.changedModes } } .takeDone (bankNumber s.scene.active.other) 0)) ∧
    (∀ (frame : Vector RawSample 32) (contacts : BitVec 4),
      let u := if s.ring.arrived.isSome then s else closePeriod s
      let b := s.begun
      (∀ v : State, exec .takeStart u = .next v → b.scene = v.scene) ∧
      ∃ t : State, exec (.cyclePeriod frame contacts) s = .next t ∧
        t.scene = { b.scene with
          handed := 0
          step := if b.scene.state = .crossfading ∧ b.scene.step < b.scene.length then b.scene.step + 1
            else b.scene.step
          lastDone := b.scene.lastDone ||
            (b.scene.state == .crossfading && decide (b.scene.length ≤ b.scene.step))
          start := if b.scene.state = .waiting ∧ b.scene.start = .next then .now else b.scene.start }) ∧
    (s.scene.state = .crossfading → s.scene.lastDone = true →
      exec .takeDone s = .next (State.withEvent { s with scene := { s.scene with
        state := .idle, target := none, step := 0, start := .no, lastDone := false } }
        .takeDone (bankNumber s.scene.active) 0))

/-- SET FEED replaces the settings of a pair and restarts it ON MAIN; REVERT FEED acts by the state and the main slot
(R84, R88). That SET FEED drops the end of a block that is due in the period is the model's choice (log entry 38). -/
def Obligations.FeedRequestsFollowTheirTables : Prop :=
  ∀ (s : State) (a : NodeAddr) (low : BitVec 8) (f : Fin 4),
    (∀ (auto : Bool) (main backup : Fin 64) (delay hi lo : Word16), hi.toNat ≤ 127 →
      s.asked a [word (f.val + if auto then 256 else 0), word main.val, word backup.val, delay, hi, lo] →
      let x : Feed :=
        { main := main, backup := backup, delay := min 48000 (max 48 delay.toNat), autoRevert := auto
          tolerance := hi.toNat * 65536 + lo.toNat, state := .onMain, selectedEmpty := 0, bothEmpty := 0
          mainPresent := 0, blockPos := 1, qualifies := true, blockCount := 0, mismatch := false
          blockDone := false }
      exec (.setFeed a low) s = .next (State.answered { s with feeds := put s.feeds f x } 0x2A .ok [])) ∧
    (s.asked a [word f.val] →
      let x := s.feeds[f]
      let empty := s.tap x.main = -8388608
      (x.state = .onMain → exec (.revertFeed a low) s = .next (s.answered 0x2B .ok [])) ∧
      (x.state ≠ .onMain → empty → exec (.revertFeed a low) s = .next (s.answered 0x2B .notAllowed [])) ∧
      let back : Feed := { x with state := .onMain, selectedEmpty := 0, bothEmpty := 0, mainPresent := 0 }
      (x.state ≠ .onMain → ¬ empty → exec (.revertFeed a low) s = .next (State.answered
        (State.withEvent { s with feeds := put s.feeds f back } .feedChanged f.val 1) 0x2B .ok [])))

/-- The changes of a feed pair: changeover to the other slot when it is present, BOTH LOST otherwise, auto-revert after
48,000 computations of a present main slot, each with its runs at 0 and its event; and the end of a mismatch block
(R85, R86, R88, R89). -/
def Obligations.FeedEventsChangeOnePair : Prop :=
  ∀ (s : State) (f : Fin 4),
    let x := s.feeds[f]
    let mainEmpty := s.tap x.main = -8388608
    let backupEmpty := s.tap x.backup = -8388608
    let changed (st : FeedState) (detail : Nat) : State :=
      let y : Feed := { x with state := st, selectedEmpty := 0, bothEmpty := 0, mainPresent := 0 }
      State.withEvent { s with feeds := put s.feeds f y } .feedChanged f.val detail
    (x.state = .onMain → x.delay ≤ x.selectedEmpty → ¬ backupEmpty →
      exec (.feedChangeover f) s = .next (changed .onBackup 2)) ∧
    (x.state = .onBackup → x.delay ≤ x.selectedEmpty → ¬ mainEmpty →
      exec (.feedChangeover f) s = .next (changed .onMain 1)) ∧
    (x.state ≠ .bothLost → mainEmpty → backupEmpty → x.delay ≤ x.bothEmpty →
      exec (.feedBothLost f) s = .next (changed .bothLost 3)) ∧
    (x.state = .onBackup → x.autoRevert = true → x.mainPresent = 48000 →
      exec (.feedAutoRevert f) s = .next (changed .onMain 1)) ∧
    (x.blockDone = true →
      let next (mismatch : Bool) : State :=
        let y : Feed :=
          { x with mismatch := mismatch, blockPos := 1, qualifies := true, blockCount := 0, blockDone := false }
        { s with feeds := put s.feeds f y }
      (x.qualifies = false → exec (.mismatchBlockEnd f) s = .next (next x.mismatch)) ∧
      (x.qualifies = true → x.blockCount ≤ 48 → exec (.mismatchBlockEnd f) s = .next (next false)) ∧
      (x.qualifies = true → 48 < x.blockCount → x.mismatch = true →
        exec (.mismatchBlockEnd f) s = .next (next true)) ∧
      (x.qualifies = true → 48 < x.blockCount → x.mismatch = false →
        exec (.mismatchBlockEnd f) s = .next ((next true).withEvent .feedMismatch f.val 0)))

/-! ### Clips -/

/-- DEFINE CLIP, DELETE CLIP and READ CLIP with operands in range: their check tables in order, and the one entry they
change (R91 to R93, R95). That a discarded write whose burst has been granted is still written to memory is the model's
choice (log entry 39). -/
def Obligations.ClipDirectoryRequestsFollowTheirTables : Prop :=
  ∀ (s : State) (a : NodeAddr) (low : BitVec 8) (c : Fin 256),
    let used := ∃ p ∈ s.pages.queue, p.chime = some c ∨ ∃ l, p.source = .clips l ∧ c ∈ l
    let capturing := ∃ e, s.clips.directory[c] = some e ∧ e.state = .capturing
    let without (t : State) (e : Option ClipEntry) : State := { t with clips := { t.clips with
      directory := put t.clips.directory c e
      writeBuffer := t.clips.writeBuffer.filter (fun b => b.clip != c) } }
    (∀ (hi lo lenHi lenLo trim : Word16) (honour : Bool), hi.toNat ≤ 63 →
      s.asked a [word c.val, hi, lo, lenHi, lenLo, word honour.toNat, trim] →
      let start := hi.toNat * 65536 + lo.toNat
      let len := lenHi.toNat * 65536 + lenLo.toNat
      let clash := 4194304 < start + len ∨ ∃ (d : Fin 256) (e : ClipEntry), d ≠ c ∧
        s.clips.directory[d] = some e ∧ start < e.start + e.region ∧ e.start < start + len
      1 ≤ len → len ≤ 4194304 →
      (capturing → exec (.defineClip a low) s = .next (s.answered 0x30 .busy [])) ∧
      (¬ capturing → used → exec (.defineClip a low) s = .next (s.answered 0x30 .inUse [])) ∧
      (¬ capturing → ¬ used → clash → exec (.defineClip a low) s = .next (s.answered 0x30 .overlap [])) ∧
      (¬ capturing → ¬ used → ¬ clash →
        (∀ e, s.clips.directory[c] = some e → e.start = start → e.region = len →
          exec (.defineClip a low) s = .next (State.answered
            { s with clips := { s.clips with
                directory := put s.clips.directory c (some { e with honour := honour, trim := trim.toNat }) } }
            0x30 .ok [])) ∧
        ((∀ e, s.clips.directory[c] = some e → e.start ≠ start ∨ e.region ≠ len) →
          exec (.defineClip a low) s = .next ((without s (some
            { start := start, region := len, used := 0, state := .empty, honour := honour
              trim := trim.toNat })).answered 0x30 .ok [])))) ∧
    (s.asked a [word c.val] →
      (s.clips.directory[c] = none →
        exec (.deleteClip a low) s = .next (s.answered 0x31 .notFound []) ∧
        exec (.readClip a low) s = .next (s.answered 0x35 .notFound [])) ∧
      (capturing → exec (.deleteClip a low) s = .next (s.answered 0x31 .busy [])) ∧
      (s.clips.directory[c] ≠ none → ¬ capturing → used →
        exec (.deleteClip a low) s = .next (s.answered 0x31 .inUse [])) ∧
      (s.clips.directory[c] ≠ none → ¬ capturing → ¬ used →
        exec (.deleteClip a low) s = .next ((without s none).answered 0x31 .ok [])) ∧
      (∀ e, s.clips.directory[c] = some e → ∃ w0 : Word16,
        exec (.readClip a low) s = .next (s.answered 0x35 .ok
          [w0, word (e.start / 65536), word e.start, word (e.region / 65536), word e.region, word (e.used / 65536),
            word e.used, word e.trim]) ∧
        w0.toNat < 32 ∧ w0.toNat % 4 = (match e.state with
          | .empty => 1
          | .capturing => 2
          | .ready => 3) ∧
        (w0.getLsbD 2 = true ↔ e.honour = true) ∧ (w0.getLsbD 3 = true ↔ used) ∧
        (w0.getLsbD 4 = true ↔ ∃ b, s.clips.writeBuffer = some b ∧ b.clip = c)))

/-- WRITE CLIP: its check table in order; taken, it raises the used length, makes the entry READY and places the words
in the clip write buffer, and clip memory is unchanged until the arbiter writes them (R94). -/
def Obligations.WriteClipFillsTheWriteBuffer : Prop :=
  ∀ (s : State) (a : NodeAddr) (low : BitVec 8) (c : Fin 256) (high lo : Nat) (data : List ClipWord),
    high ≤ 63 → lo < 65536 → 1 ≤ data.length → data.length ≤ 14 →
    s.asked a (word (c.val * 256 + high) :: word lo :: data) →
    let used := ∃ p ∈ s.pages.queue, p.chime = some c ∨ ∃ l, p.source = .clips l ∧ c ∈ l
    let offset := high * 65536 + lo
    (s.clips.directory[c] = none → exec (.writeClip a low) s = .next (s.answered 0x32 .notFound [])) ∧
    (∀ e, s.clips.directory[c] = some e →
      (e.state = .capturing → exec (.writeClip a low) s = .next (s.answered 0x32 .busy [])) ∧
      (e.state ≠ .capturing → used → exec (.writeClip a low) s = .next (s.answered 0x32 .inUse [])) ∧
      (e.state ≠ .capturing → ¬ used → (e.used < offset ∨ e.region < offset + data.length) →
        exec (.writeClip a low) s = .next (s.answered 0x32 .outOfRange [])) ∧
      (e.state ≠ .capturing → ¬ used → offset ≤ e.used → offset + data.length ≤ e.region →
        (s.clips.writeBuffer ≠ none → exec (.writeClip a low) s = .next (s.answered 0x32 .busy [])) ∧
        (s.clips.writeBuffer = none → exec (.writeClip a low) s = .next (State.answered
          { s with clips := { s.clips with
              directory := put s.clips.directory c
                (some { e with used := max e.used (offset + data.length), state := .ready })
              writeBuffer := some
                { clip := c, address := e.start + offset, words := data, granted := false } } } 0x32 .ok []))))

/-- CAPTURE CLIP and CANCEL CAPTURE: their check tables in order, and the capture record and entry they leave (R96,
R99). A granted burst of a discarded write is still written (log entry 39, the model's choice). -/
def Obligations.CaptureRequestsFollowTheirTables : Prop :=
  ∀ (s : State) (a : NodeAddr) (low : BitVec 8) (c : Fin 256) (slot : Fin 64) (onSound : Bool),
    let used := ∃ p ∈ s.pages.queue, p.chime = some c ∨ ∃ l, p.source = .clips l ∧ c ∈ l
    (s.asked a [word c.val, word slot.val, word onSound.toNat] →
      (s.clips.directory[c] = none → exec (.captureClip a low) s = .next (s.answered 0x33 .notFound [])) ∧
      (∀ e, s.clips.directory[c] = some e →
        (s.clips.capture.phase ≠ .idle → exec (.captureClip a low) s = .next (s.answered 0x33 .busy [])) ∧
        (s.clips.capture.phase = .idle → used → exec (.captureClip a low) s = .next (s.answered 0x33 .inUse [])) ∧
        (s.clips.capture.phase = .idle → ¬ used → exec (.captureClip a low) s = .next (State.answered
          { s with clips := { s.clips with
              directory := put s.clips.directory c (some { e with used := 0, state := .capturing })
              writeBuffer := s.clips.writeBuffer.filter (fun b => b.clip != c)
              capture :=
                { phase := if onSound then .waitingSound else .recording, clip := c, slot := slot, stored := 0
                  heard := false, emptyRun := 0, buffer := [], used := 0, full := false } } } 0x33 .accepted [])))) ∧
    (s.asked a [] →
      (s.clips.capture.phase = .idle → exec (.cancelCapture a low) s = .next (s.answered 0x34 .notFound [])) ∧
      (s.clips.capture.phase ≠ .idle → ∃ t : State,
        exec (.cancelCapture a low) s = .next
          ((t.withEvent .captureFailed s.clips.capture.clip.val 1).answered 0x34 .ok []) ∧
        t = { s with clips := t.clips } ∧ t.clips.capture.phase = .idle ∧ t.clips.capture.buffer = [] ∧
        t.clips.memory = s.clips.memory ∧ t.clips.burst = s.clips.burst ∧ t.clips.players = s.clips.players ∧
        t.clips.writeBuffer = s.clips.writeBuffer ∧
        ∀ d : Fin 256, t.clips.directory[d] =
          if d = s.clips.capture.clip then (s.clips.directory[d]).map (fun e => { e with used := 0, state := .empty })
          else s.clips.directory[d]))

/-- A recording ends FULL when its words equal the region length, and END after 480 empty computations, less the
trailing ones: the end marker replaces the word at the used length in the capture buffer, or is placed after the
buffered words, and every other buffered word stays; a closing capture whose last word is written completes (R98). The
clip, slot and counts of the record it leaves are the model's choice (log entry 40), and so is the marker's place as
one more buffered word, in a full buffer too (log entry 49). -/
def Obligations.CaptureEventsCloseARecording : Prop :=
  ∀ (s : State) (e : ClipEntry), s.clips.directory[s.clips.capture.clip] = some e →
    let c := s.clips.capture
    (c.phase = .recording → c.stored = e.region →
      exec .captureFull s = .next { s with clips := { s.clips with
        capture := { c with phase := .closing, used := c.stored, full := true } } }) ∧
    (c.phase = .recording → c.stored ≠ e.region → c.emptyRun = 480 → 480 ≤ c.stored →
      let address := e.start + (c.stored - 480)
      exec .captureEnd s = .next { s with clips := { s.clips with
        capture := { c with
          phase := .closing, used := c.stored - 480, full := false
          buffer :=
            if c.buffer.any (fun x => x.1 == address) then
              c.buffer.map (fun x => if x.1 = address then (address, 0x8000) else x)
            else c.buffer ++ [(address, 0x8000)] } } }) ∧
    (c.phase = .closing → c.buffer = [] → s.clips.burst = none →
      exec .captureDone s = .next (State.withEvent
        { s with clips := { s.clips with
            directory := put s.clips.directory c.clip (some { e with used := c.used, state := .ready })
            capture := Capture.idle } } .captureDone c.clip.val (if c.full then 1 else 2)))

/-- A player with words still to fetch asks for a burst in PRIMING below 256 words in its FIFO and in PLAYING at 128 or
fewer, of the smallest of 64, the words of its clip not yet fetched and, in PRIMING, the room left (R101). The capture
unit asks at 64 buffered words, or in CLOSING with any (R102). The arbiter grants one burst when the memory is free: to
the asking player with the fewest words, then to the capture unit, then to the write buffer, or none (R102). A burst
that has had its two periods writes its words (R94), or delivers them to the player that asked: those before an end
marker of a clip whose honour-marker is set, and the fetch position moves on, to the next clip at the marker or at the
used length (R101); words for a player restarted or released since are discarded (R100). After the words of a burst are
written, a read at an address gives the last word written there and at any other address what it gave before; a player
burst receives the word of the clip write buffer where that holds the address, and the word of clip memory otherwise
(R94). That captured words leave the capture buffer at the grant is log entry 16 (DEDUCED); that a grant while a burst
is in progress changes nothing, and that a granted write is written though its buffer has been discarded since, are the
model's choices (log entries 5 and 39). -/
def Obligations.BurstsAreGrantedAndDone : Prop :=
  ∀ s : State,
    let asks (p : Fin 4) : Prop :=
      let x := s.clips.players[p]
      x.fetch ≠ none ∧ x.releasing = false ∧
        ((x.state = .priming ∧ x.fifo.length < 256) ∨ (x.state = .playing ∧ x.fifo.length ≤ 128))
    let captureAsks := 64 ≤ s.clips.capture.buffer.length ∨
      (s.clips.capture.phase = .closing ∧ s.clips.capture.buffer ≠ [])
    (s.memoryOk → ∀ (cells : List ClipCell) (x : Nat), (∀ y ∈ cells, y.1 < 4194304) →
      let m := memWriteAll s.clips.memory cells
      (∀ (before after : List ClipCell) (w : ClipWord), cells = before ++ (x, w) :: after → (∀ y ∈ after, y.1 ≠ x) →
        memRead m x = w) ∧
      ((∀ y ∈ cells, y.1 ≠ x) → memRead m x = memRead s.clips.memory x)) ∧
    (∀ x : Nat, x < 4194304 →
      (∀ (b : WriteBuffer) (n : Nat) (w : ClipWord), s.clips.writeBuffer = some b → b.words[n]? = some w →
        x = b.address + n → s.clips.readWord x = w) ∧
      ((∀ b : WriteBuffer, s.clips.writeBuffer = some b → x < b.address ∨ b.address + b.words.length ≤ x) →
        s.clips.readWord x = memRead s.clips.memory x)) ∧
    (s.clips.burst ≠ none → exec .burstGrant s = .next s) ∧
    (∀ (p : Fin 4) (pos off : Nat) (e : ClipEntry), s.clips.burst = none → asks p →
      (∀ q : Fin 4, asks q → q ≠ p →
        (s.clips.players[p]).fifo.length < (s.clips.players[q]).fifo.length ∨
        ((s.clips.players[p]).fifo.length = (s.clips.players[q]).fifo.length ∧ p < q)) →
      (s.clips.players[p]).fetch = some (pos, off) →
      (s.clips.players[p]).sequence[pos]?.bind (fun c => s.clips.directory[c]) = some e →
      let left := e.used - off
      let len := if (s.clips.players[p]).state = .priming then
          min 64 (min left (256 - (s.clips.players[p]).fifo.length)) else min 64 left
      exec .burstGrant s = .next { s with clips := { s.clips with
        burst := some { kind := .playerRead p pos off len false, elapsed := 0 } } }) ∧
    (s.clips.burst = none → (∀ p : Fin 4, ¬ asks p) → ¬ captureAsks → s.clips.writeBuffer = none →
      exec .burstGrant s = .next s) ∧
    (s.clips.burst = none → (∀ p : Fin 4, ¬ asks p) → captureAsks →
      exec .burstGrant s = .next { s with clips := { s.clips with
        burst := some { kind := .captureWrite (s.clips.capture.buffer.take 64), elapsed := 0 }
        capture := { s.clips.capture with buffer := s.clips.capture.buffer.drop 64 } } }) ∧
    (∀ b : WriteBuffer, s.clips.burst = none → (∀ p : Fin 4, ¬ asks p) → ¬ captureAsks →
      s.clips.writeBuffer = some b →
      exec .burstGrant s = .next { s with clips := { s.clips with
        burst := some { kind := .bufferWrite (b.words.mapIdx (fun n w => (b.address + n, w))), elapsed := 0 }
        writeBuffer := some { b with granted := true } } }) ∧
    (∀ cells : List ClipCell, s.clips.burst = some { kind := .captureWrite cells, elapsed := 2 } →
      exec .burstDone s = .next { s with clips := { s.clips with
        burst := none, memory := memWriteAll s.clips.memory cells } }) ∧
    (∀ cells : List ClipCell, s.clips.burst = some { kind := .bufferWrite cells, elapsed := 2 } →
      exec .burstDone s = .next { s with clips := { s.clips with
        burst := none, memory := memWriteAll s.clips.memory cells
        writeBuffer := s.clips.writeBuffer.filter (fun b => !b.granted) } }) ∧
    (∀ (p : Fin 4) (pos off len : Nat),
      s.clips.burst = some { kind := .playerRead p pos off len true, elapsed := 2 } →
      exec .burstDone s = .next { s with clips := { s.clips with burst := none } }) ∧
    (∀ (p : Fin 4) (pos off len : Nat) (e : ClipEntry),
      s.clips.burst = some { kind := .playerRead p pos off len false, elapsed := 2 } →
      (s.clips.players[p]).sequence[pos]?.bind (fun c => s.clips.directory[c]) = some e →
      let x := s.clips.players[p]
      let words := (List.range len).map (fun i => s.clips.readWord (e.start + off + i))
      let taken := if e.honour then words.takeWhile (fun w => w != 0x8000) else words
      exec .burstDone s = .next { s with clips := { s.clips with
        burst := none
        players := put s.clips.players p { x with
          fifo := x.fifo ++ taken.map (fun w => (pos, w))
          fetch :=
            if taken.length < len ∨ e.used ≤ off + len then
              if pos + 1 < x.sequence.length then some (pos + 1, 0) else none
            else some (pos, off + len) } } })

/-- A priming player with a full FIFO, or with its whole sequence fetched and no burst of its own outstanding, enters
PLAYING (R101); the end of a clip page's chime turns its phase to AUDIO, and that of a live page gives back its player,
turns the phase to AUDIO and makes a grant pass due (R104, R120); the end of a clip page's sequence before its last
repeat advances the repeat, into the gap or, with no gap, to the next period, and the end of the last ends the page
COMPLETED (R121, R122). That the passes are only made due, and that a player given back has nothing to fetch, are the
model's choices (log entries 15 and 48). -/
def Obligations.PlayerEventsAdvanceTheirPage : Prop :=
  ∀ (s : State) (p : Fin 4), s.pagesOk →
    let x := s.clips.players[p]
    let taken (y : Player) : State := { s with clips := { s.clips with players := put s.clips.players p y } }
    (x.state = .priming → x.releasing = false →
      (256 ≤ x.fifo.length ∨ (x.fetch = none ∧
        ∀ pos off len n, s.clips.burst ≠ some { kind := .playerRead p pos off len false, elapsed := n })) →
      exec (.playerPrimed p) s = .next (taken { x with state := .playing })) ∧
    ∀ q : Page, s.playerPage p = some q →
      (x.chimeEnd = .due → q.clip = true → q.phase = .chime →
        exec (.chimeEnd p) s = .next
          ((taken { x with chimeEnd := .taken }).withPage q.id (fun r => { r with phase := .audio }))) ∧
      (x.seqEnd = .due → q.clip = true → q.current < q.repeats →
        exec (.sequenceEnd p) s = .next ((taken { x with seqEnd := .taken }).withPage q.id (fun r => { r with
          current := r.current + 1, phase := if 0 < r.gap then .gap else r.phase
          restartIn := some (if 0 < r.gap then r.gap * 480 else 1) }))) ∧
      (x.seqEnd = .due → q.clip = true → q.repeats ≤ q.current →
        exec (.sequenceEnd p) s = .next ((taken { x with seqEnd := .taken }).pageOver q 1)) ∧
      (x.seqEnd = .due → q.clip = false →
        exec (.sequenceEnd p) s = .next ((((taken { x with seqEnd := .taken }).playerFreed (some p)).withPage q.id
          (fun r => { r with player := none, phase := .audio, sourceLoss := 0 })).passDue))

/-- What one cycle period does to feed pairs, the capture unit and players. The runs and the block of each pair count
(R85, R89), and a pair in BOTH LOST goes to a slot that is present, the main slot first (R87). The capture unit stores
the sample of its slot, as one word, or loses it when its buffer is full (R97). At the start of the period a released
player enters IDLE and the arbiter serves one requester (R100, R102). Each player forms its sample and, PLAYING, takes
one word, reports its boundaries and its first underrun (R103, R104). What a TAKE that started in the period does to
players is kept out by a premise. That chime end and sequence end come when no word of them is left to fetch or to play
is log entry 18 (DEDUCED). That b is the state after the events of the period before, and that an IDLE player has
nothing to fetch and no underrun reported, are the model's choices (log entries 2 and 48). -/
def Obligations.PeriodsCountFeedsCapturesAndPlayers : Prop :=
  ∀ (s : State) (frame : Vector RawSample 32) (contacts : BitVec 4),
    let u := if s.ring.arrived.isSome then s else closePeriod s
    let b := s.begun
    ∃ t : State, exec (.cyclePeriod frame contacts) s = .next t ∧
      let posted (kind : EventKind) (subject : Word16) (detail : BitVec 4) : Prop :=
        { kind := kind, stamp := t.ring.cycleNumber.extractLsb' 9 7, subject := subject, detail := detail } ∈
          t.ctl.events ∨ t.ctl.overflow = true
      (∀ f : Fin 4,
        let x := b.feeds[f]
        let mainEmpty := b.tap x.main == -8388608
        let backupEmpty := b.tap x.backup == -8388608
        let run (n : Nat) (holds : Bool) : Nat := if holds then min 48000 (n + 1) else 0
        let y : Feed := { x with
          selectedEmpty := match x.state with
            | .onMain => run x.selectedEmpty mainEmpty
            | .onBackup => run x.selectedEmpty backupEmpty
            | .bothLost => x.selectedEmpty
          bothEmpty := run x.bothEmpty (mainEmpty && backupEmpty)
          mainPresent := run x.mainPresent (!mainEmpty)
          qualifies := x.qualifies && !mainEmpty && !backupEmpty
          blockCount :=
            if mainEmpty = false ∧ backupEmpty = false ∧
                (x.tolerance : Int) < max (b.tap x.main - b.tap x.backup) (b.tap x.backup - b.tap x.main)
              then x.blockCount + 1 else x.blockCount
          blockPos := if x.blockPos < 480 then x.blockPos + 1 else x.blockPos
          blockDone := x.blockDone || decide (480 ≤ x.blockPos) }
        let back (st : FeedState) : Feed := { y with state := st, selectedEmpty := 0, bothEmpty := 0, mainPresent := 0 }
        (x.state ≠ .bothLost ∨ (mainEmpty = true ∧ backupEmpty = true) → t.feeds[f] = y) ∧
        (x.state = .bothLost → mainEmpty = false → t.feeds[f] = back .onMain ∧ posted .feedChanged (word f.val) 1) ∧
        (x.state = .bothLost → mainEmpty = true → backupEmpty = false →
          t.feeds[f] = back .onBackup ∧ posted .feedChanged (word f.val) 2)) ∧
      (let c := b.clips.capture
       let x := b.tap c.slot
       let start := ((b.clips.directory.get c.clip).map (·.start)).getD 0
       let word_ : ClipWord := if x = -8388608 then 0 else BitVec.ofInt 16 (max (-32767) (min 32767 ((x + 128) / 256)))
       let stored : Capture :=
         if 256 ≤ c.buffer.length then { c with phase := .recording }
         else { c with
           phase := .recording, buffer := c.buffer ++ [(start + c.stored, word_)], stored := c.stored + 1
           heard := c.heard || decide (x ≠ -8388608)
           emptyRun := if x = -8388608 ∧ c.heard = true then c.emptyRun + 1 else 0 }
       (c.phase = .recording ∨ (c.phase = .waitingSound ∧ x ≠ -8388608) → t.clips.capture = stored) ∧
       (c.phase = .idle ∨ c.phase = .closing ∨ (c.phase = .waitingSound ∧ x = -8388608) → t.clips.capture = c)) ∧
      (∀ p : Fin 4,
        ((u.clips.players[p]).releasing = false → b.clips.players[p] = u.clips.players[p]) ∧
        ((u.clips.players[p]).releasing = true → b.clips.players[p] =
          { state := .idle, sequence := [], hasChime := false, fetch := none, fifo := [], underrun := false
            chimeEnd := .taken, seqEnd := .taken, releasing := false })) ∧
      (∀ w : State, exec .burstGrant { u with clips := { u.clips with players := b.clips.players } } = .next w →
        b.clips = w.clips) ∧
      (∀ p : Fin 4,
        let x := b.clips.players[p]
        t.recent.players[p] =
          match x.state, x.fifo with
          | .idle, _ => -8388608
          | .playing, (pos, w) :: _ =>
            let trim : Nat := ((x.sequence[pos]?.bind (fun c => b.clips.directory[c])).map (·.trim)).getD 0
            max (-8388607) (min 8388607 ((w.toInt * 256 * (trim : Int) + 8192) / 16384))
          | _, _ => 0) ∧
      (b.scene.handed = 0 →
        t.clips.burst = b.clips.burst.map (fun x => { x with elapsed := x.elapsed + 1 }) ∧
        ∀ p : Fin 4,
          let x := b.clips.players[p]
          let asked := ∃ pos off len n, b.clips.burst = some { kind := .playerRead p pos off len false, elapsed := n }
          let under := x.fifo = [] ∧ (x.fetch ≠ none ∨ asked)
          let after (reported : Bool) : Player := { x with
            fifo := x.fifo.tail, underrun := reported
            chimeEnd :=
              if x.chimeEnd = .ahead ∧ x.fetch.all (fun f => decide (1 ≤ f.1)) = true ∧
                x.fifo.tail.all (fun w => w.1 != 0) = true then .due else x.chimeEnd
            seqEnd := if x.seqEnd = .ahead ∧ x.fetch = none ∧ x.fifo.tail = [] then .due else x.seqEnd }
          (x.state ≠ .playing → t.clips.players[p] = x) ∧
          (x.state = .playing → ¬ under → t.clips.players[p] = after x.underrun) ∧
          (x.state = .playing → under → t.clips.players[p] = after true ∧
            (x.underrun = false → posted .underrun (((b.playerPage p).map (·.id)).getD 0) (BitVec.ofNat 4 p.val))))

/-! ### Announcements -/

/-- QUEUE PAGE with operands in range: DUPLICATE, FULL and NOT FOUND in this order; taken, the record with its clamped
values joins the queue behind every record of equal or higher priority, and a grant pass of the period is due (R106 to
R109, R112). That the record stays WAITING until the period closes, the pass being only due, is the model's choice (log
entry 15), and so is the phase AUDIO of a new record (log entry 56). -/
def Obligations.QueuePageQueuesOneRecord : Prop :=
  ∀ (s : State) (a : NodeAddr) (low : BitVec 8) (id w1 src chimeW l0 l1 l2 l3 zlo zhi gap wait limit gain : Word16)
    (source : PageSource) (chime : Option (Fin 256)) (zones : ZoneSet),
    sourceWords source src l0 l1 l2 l3 → chimeW = chime.elim 0xFFFF (fun c => word c.val) → zoneWords zones zlo zhi →
    s.asked a [id, w1, src, chimeW, l0, l1, l2, l3, zlo, zhi, gap, wait, limit, gain] →
    outOfRange 0x38 [id, w1, src, chimeW, l0, l1, l2, l3, zlo, zhi, gap, wait, limit, gain] = false →
    let present := ∃ p ∈ s.pages.queue, p.id = id
    let named (c : Fin 256) : Prop := chime = some c ∨ ∃ l, source = .clips l ∧ c ∈ l
    let ready (c : Fin 256) : Prop := ∃ e, s.clips.directory[c] = some e ∧ e.state = .ready
    let page : Page :=
      { id := id, priority := w1.toNat % 16, origin := .request, source := source, chime := chime, zones := zones
        whole := !w1.getLsbD 4, repeats := min 8 (max 1 (w1.toNat / 256 % 16)), gap := min 600 gap.toNat
        waitLife := min 600 wait.toNat
        playLimit := (match source with
          | .clips _ => 600
          | _ => min 600 (max 1 limit.toNat))
        gain := gain.toNat, arrival := s.pages.nextArrival, state := .waiting, granted := 0, joining := 0
        player := none, current := 1, phase := .audio, waitTimer := 0, playTimer := 0, sourceLoss := 0
        restartIn := none, started := false, suspPosted := false }
    (present → exec (.queuePage a low) s = .next (s.answered 0x38 .duplicate [])) ∧
    (¬ present → 32 ≤ s.pages.queue.length → exec (.queuePage a low) s = .next (s.answered 0x38 .full [])) ∧
    (¬ present → s.pages.queue.length < 32 → (∃ c, named c ∧ ¬ ready c) →
      exec (.queuePage a low) s = .next (s.answered 0x38 .notFound [])) ∧
    (¬ present → s.pages.queue.length < 32 → (∀ c, named c → ready c) → ∃ before after : List Page,
      s.pages.queue = before ++ after ∧ (∀ p ∈ after.head?, p.priority < page.priority) ∧
      (∀ p ∈ before, page.priority ≤ p.priority) ∧
      exec (.queuePage a low) s = .next (State.answered
        { s with pages :=
          { queue := before ++ page :: after, nextArrival := s.pages.nextArrival + 1, passes := s.pages.passes + 1 } }
        0x38 .ok []))

/-- CANCEL PAGE ends its record CANCELLED, in whatever state it is; READ PAGE reports a record as it stands; both
answer OUT OF RANGE for an id of 0 and NOT FOUND for an id that no record has (R122, R126, R127). That the grant pass
after the end is only due, and that a player given back has nothing to fetch, are the model's choices (log entries 15
and 48). -/
def Obligations.CancelAndReadPageActOnOneRecord : Prop :=
  ∀ (s : State) (a : NodeAddr) (low : BitVec 8) (id : PageId), s.asked a [id] →
    (id = 0 →
      exec (.cancelPage a low) s = .next (s.answered 0x39 .outOfRange []) ∧
      exec (.readPage a low) s = .next (s.answered 0x3A .outOfRange [])) ∧
    (id ≠ 0 → (∀ p ∈ s.pages.queue, p.id ≠ id) →
      exec (.cancelPage a low) s = .next (s.answered 0x39 .notFound []) ∧
      exec (.readPage a low) s = .next (s.answered 0x3A .notFound [])) ∧
    (∀ (before after : List Page) (p : Page), id ≠ 0 → s.pages.queue = before ++ p :: after → p.id = id →
      (∀ q ∈ before, q.id ≠ id) →
      exec (.cancelPage a low) s = .next ((s.pageOver p 2).answered 0x39 .ok []) ∧
      exec (.readPage a low) s = .next (s.answered 0x3A .ok
        [ word ((match p.state with
            | .waiting => 1
            | .playing => 2
            | .suspended => 3) +
            (if p.state = .playing then 4 * (match p.phase with
              | .chime => 1
              | .audio => 2
              | .gap => 3) else 0) +
            (if p.whole then 0 else 16) + (if p.origin = .request then 0 else 32) +
            256 * (p.player.map Fin.val).getD 7 + 4096 * p.priority),
          word (p.current + 16 * p.repeats + 256 * before.length),
          p.granted.extractLsb' 0 16, (p.granted.extractLsb' 16 8).setWidth 16,
          p.joining.extractLsb' 0 16, (p.joining.extractLsb' 16 8).setWidth 16,
          word (min (if p.waitLife = 0 then 65535 else 600) (p.waitTimer / 48000)),
          word (if p.clip then 0 else p.playTimer / 48000) ]))

/-- A record's timers end it: EXPIRED at its wait life, TIMED OUT at its play limit, SOURCE LOST after 96,000 empty
computations (R122 to R124); the end of a gap starts the next repeat, with the chime only in the first, and the page
takes its joining zones that are grantable then from the lower pages that hold them, which makes a grant pass due for
each of them that it suspends (R112, R115, R116, R119, R121). Choices of the model: PAGE EXPIRED before its time
changes nothing (log entry 5), the passes are only made due (log entry 15), pages suspended together post in queue
order (log entry 41), TIMED OUT and SOURCE LOST end a page that is PLAYING alone, and that one in any phase (log entry
54), and a player given back has nothing to fetch (log entry 48). -/
def Obligations.PageTimersEndPagesAndGaps : Prop :=
  ∀ (s : State) (p : Page), s.pagesOk → p ∈ s.pages.queue →
    (p.state ≠ .playing → 0 < p.waitLife → p.waitTimer = p.waitLife * 48000 →
      exec (.pageExpired p.id) s = .next (s.pageOver p 3)) ∧
    (p.state ≠ .playing → (p.waitLife = 0 ∨ p.waitTimer < p.waitLife * 48000) →
      exec (.pageExpired p.id) s = .next s) ∧
    (p.state = .playing → p.clip = false → p.playTimer = p.playLimit * 48000 →
      exec (.pageTimedOut p.id) s = .next (s.pageOver p 4)) ∧
    (p.state = .playing → p.sourceLoss = 96000 → exec (.pageSourceLost p.id) s = .next (s.pageOver p 5)) ∧
    (∀ (list : List (Fin 256)) (x : Fin 4), p.state = .playing → p.restartIn = some 0 → p.source = .clips list →
      p.player = some x →
      let chimes := p.chime.isSome && p.current == 1
      let zs := p.joining &&& s.grantableZones p
      let restarted := (s.withPage p.id (fun q => { q with
        restartIn := none, phase := if chimes then .chime else .audio })).playerHanded x
          (if p.current = 1 then p.chime.toList ++ list else list) chimes
      let t := (restarted.afterTaking p zs).withPage p.id (fun q => { q with joining := 0 })
      exec (.gapEnd p.id) s = .next (t.passesDue (s.suspendedCount (fun q => if q.id = p.id then 0 else zs))))

/-- The page scheduler's pass. Which zones are grantable to a page (R111); what a change of coverage, mode or threshold
revokes (R118); what a walk does with each record as it stands: a WAITING or SUSPENDED one is granted its zones and the
lowest free player, starts its repeat and posts PAGE STARTED at its first grant, or takes nothing (R113, R114, R119), a
PLAYING PARTIAL one takes or marks its joining zones (R115, R116); walks in queue order until one suspends no page; the
passes of a period run when it closes, one for each cause, each record that a revocation suspends being one, and a
record past its wait life that they leave SUSPENDED ends EXPIRED in that period, in queue order, which makes a further
pass due, run in a further round (R111, R112, R121 to R123). The close of a period takes every event that is due: those
of the clip engine, the feed pairs, the alarm engine, the intercom switch and the page records, then the passes, then
those of the scanner, the trackers and the ring interface; after them the settings of a SET NODE hold (R38). That pages
suspended together post in queue order is the model's choice (log entry 41), and so are the order of the events of a
period (log entry 2), the settings held apart until its close (log entry 12), the expiry before the passes, their place
at the close of the period (log entry 15), the fetched-all position of a player given back (log entry 48), and the
source-loss run of 0 in the chime of a live page (log entry 56). -/
def Obligations.GrantPassesFollowTheQueue : Prop :=
  ∀ s : State, s.pagesOk →
    (∀ (p : Page) (z : Fin 24),
      (s.grantable p z = true ↔ s.covered z = false ∧
        (∀ h, (s.zoneFields z).mode = .showLocked h → h ≤ p.priority) ∧
        ∀ q ∈ s.pages.queue, q.granted.getLsbD z.val = true → q.priority < p.priority) ∧
      ((s.grantableZones p).getLsbD z.val = true ↔ p.zones.getLsbD z.val = true ∧ s.grantable p z = true) ∧
      ((s.revokedZones p).getLsbD z.val = true ↔ p.granted.getLsbD z.val = true ∧
        (s.covered z = true ∨ ∃ h, (s.zoneFields z).mode = .showLocked h ∧ p.priority < h))) ∧
    s.handScheduler = s.afterHandOff ∧
    (∀ (p : Page) (b : Bool), p ∈ s.pages.queue →
      let zs := s.grantableZones p
      let hit := s.pages.queue.any (fun q => q.id != p.id && q.suspendedBy zs)
      let needs : Prop := p.clip = true ∨ p.chime ≠ none
      let free (t : State) (x : Fin 4) : Prop := ∀ q ∈ t.pages.queue, q.player ≠ some x
      let may := (if p.whole then zs = p.zones else zs ≠ 0) ∧ (needs → ∃ x, free s x)
      let sequence : List (Fin 256) := match p.source with
        | .clips l => if p.current = 1 then p.chime.toList ++ l else l
        | _ => p.chime.toList
      let chimes := p.chime.isSome && (!p.clip || p.current == 1)
      let playing (x : Option (Fin 4)) : Page := { p with
        state := .playing, granted := zs, player := x, started := true, restartIn := none
        phase := if chimes then .chime else .audio, sourceLoss := if p.clip then p.sourceLoss else 0 }
      let shown (t : State) : State := if p.started then t else t.withEvent .pageStarted p.id.toNat 0
      let taken := s.afterTaking p zs
      (p.state = .playing → p.whole = true → examinePage p.id (s, b) = (s, b)) ∧
      (p.state = .playing → p.whole = false → p.clip = true →
        examinePage p.id (s, b) = (s.withPage p.id (fun q => { q with joining := zs }), b)) ∧
      (p.state = .playing → p.whole = false → p.clip = false →
        examinePage p.id (s, b) = (taken.withPage p.id (fun q => { q with joining := 0 }), b || hit)) ∧
      (p.state ≠ .playing → ¬ may → examinePage p.id (s, b) = (s, b)) ∧
      (p.state ≠ .playing → may → ¬ needs →
        examinePage p.id (s, b) = (shown (taken.withPage p.id (fun _ => playing none)), b || hit)) ∧
      (∀ x : Fin 4, p.state ≠ .playing → may → needs → free taken x → (∀ y < x, ¬ free taken y) →
        examinePage p.id (s, b) =
          (shown ((taken.withPage p.id (fun _ => playing (some x))).playerHanded x sequence chimes), b || hit))) ∧
    walk s = (s.pages.queue.map (·.id)).foldl (fun r id => examinePage id r) (s, false) ∧
    (∃ n : Nat, (∀ k < n, (walk ((fun t => (walk t).1)^[k] s)).2 = true) ∧
      (walk ((fun t => (walk t).1)^[n] s)).2 = false ∧ s.grantPass = (fun t => (walk t).1)^[n + 1] s) ∧
    s.runPasses = State.grantPass^[s.pages.passes] { s with pages := { s.pages with passes := 0 } } ∧
    (s.pages.passes = 0 → s.settle = s) ∧
    (0 < s.pages.passes → s.settle = s.runPasses.expired.settle) ∧
    (0 < s.pages.passes → ∀ q ∈ s.settle.pages.queue, q.state ≠ .playing → 0 < q.waitLife →
      q.waitTimer < q.waitLife * 48000) ∧
    (let v := s.eventsTaken.settle.after lastEvents
     closePeriod s = { v with
       icom := { v.icom with poll := (closePeriod s).icom.poll }
       ctl := { v.ctl with settings := v.ctl.incoming.getD v.ctl.settings, incoming := none } } ∧
     v.pages = s.eventsTaken.settle.pages) ∧
    (closePeriod s).pages.passes = 0

/-- What one cycle period does to page records, calls and stations. The wait timer of a record counts in every state,
up to its wait life when it has one (R123); the play timer and the source-loss run of a live page count in its AUDIO,
up to the play limit and 96,000 (R124); a repeat that is to start comes one period nearer (R121). Ring, hold and cue
timers count (R133, R135). A poll slot lasts 48 periods, and each polls the next port (R131), with the cue that the
station's state gives in that period as its events leave it; the state of a station follows from its presence and its
call (R133). What a TAKE that started in the period does to pages is kept out by a premise; that b is the state after
the events of the period before is the model's choice (log entry 2), and so is the reading of the poll's cue at the end
of its period (log entry 44). -/
def Obligations.PeriodsCountPagesCallsAndPolls : Prop :=
  (∀ (s : State) (frame : Vector RawSample 32) (contacts : BitVec 4),
    let u := if s.ring.arrived.isSome then s else closePeriod s
    let b := s.begun
    ∃ t : State, exec (.cyclePeriod frame contacts) s = .next t ∧
      (b.scene.handed = 0 →
        t.pages = { b.pages with queue := b.pages.queue.map (fun p =>
          let live := p.state == .playing && p.phase == .audio && !p.clip
          { p with
            waitTimer :=
              if p.waitLife = 0 then p.waitTimer + 1 else min (p.waitLife * 48000) (p.waitTimer + 1)
            playTimer := if live then min (p.playLimit * 48000) (p.playTimer + 1) else p.playTimer
            sourceLoss := match live, p.source with
              | true, .liveSlot x => if b.tap x = -8388608 then min 96000 (p.sourceLoss + 1) else 0
              | _, _ => p.sourceLoss
            restartIn := p.restartIn.map (· - 1), suspPosted := false }) }) ∧
      t.icom.calls = b.icom.calls.map (fun c => match c.state with
        | .held => { c with holdTimer := c.holdTimer + 1 }
        | .connected => c
        | _ => { c with ringTimer := c.ringTimer + 1 }) ∧
      (∀ p : Fin 32, t.icom.table[p] = (b.icom.table[p]).map (fun e =>
        if e.cueTimer = 0 then e
        else if e.cueTimer = 1 then { e with cueDue := true } else { e with cueTimer := e.cueTimer - 1 })) ∧
      t.icom.slotTime = (if u.icom.slotTime < 47 then u.icom.slotTime + 1 else 0) ∧
      (u.icom.slotTime = 0 →
        t.icom.awaiting = some u.icom.nextPort ∧ t.icom.poll.map (·.1) = some u.icom.nextPort ∧
        t.icom.nextPort.val = (u.icom.nextPort.val + 1) % 32) ∧
      (u.icom.slotTime ≠ 0 →
        t.icom.awaiting = u.icom.awaiting ∧ t.icom.poll = u.icom.poll ∧ t.icom.nextPort = u.icom.nextPort)) ∧
  (∀ (s : State) (p : Fin 32),
    ((s.icom.presence[p]).present = false → s.stationState p = .absent) ∧
    ((s.icom.presence[p]).present = true → (∀ c ∈ s.icom.calls, p ∉ c.stations) → s.stationState p = .idle) ∧
    ∀ c ∈ s.icom.calls, (s.icom.presence[p]).present = true → s.callsApart → p ∈ c.stations →
      s.stationState p =
        match c.state, c.parties with
        | .connected, _ => .talking
        | .held, _ => .held
        | .wanted, _ => .calling
        | .ringing, .loc x _ => if p = x then .calling else .ringing
        | .ringing, .trunkOut _ _ => .calling
        | .ringing, .trunkIn _ _ => if c.answered then .talking else .ringing) ∧
  ∀ (s : State) (p : Fin 32) (c : Cue), s.icom.slotTime = 1 → s.icom.poll = some (p, c) →
    let v := closePeriod s
    (v.icom.table[p] = none → v.icom.poll = some (p, .idle)) ∧
    ∀ e : Station, v.icom.table[p] = some e → v.icom.poll = some (p,
      match v.stationState p with
      | .absent => .idle
      | .idle => if 0 < e.cueTimer then .busy else if e.listen.any v.covered then .alarm else .idle
      | .calling => .ringback
      | .ringing => .ringing
      | .talking => .talking
      | .held => .held)

/-! ### Intercom -/

/-- The outcome of a poll slot: a reply makes the port PRESENT, with STATION FOUND when it was ABSENT, and brings its
key events; a miss counts; the third posts STATION LOST, then ends the station's call with the cause STATION LOST, sets
its cue timer to 0, and ends its page with the cause SOURCE LOST; a cue timer runs out (R131 to R133, R125, R141). That
the key events of a reply join a waiting list, to be handled by their own commands, is the model's choice (log entry
19), and so are the pass after the end of the page, which is only due (log entry 15), and the fetch position of a
player given back (log entry 48). -/
def Obligations.PollOutcomesMovePresence : Prop :=
  ∀ (s : State) (p : Fin 32),
    let x := s.icom.presence[p]
    let seen (present : Bool) (misses : Nat) (keys : List Key) : State := { s with icom := { s.icom with
      awaiting := none, presence := put s.icom.presence p { present := present, misses := misses }
      keys := s.icom.keys ++ keys.map (fun k => (p, k)) } }
    (∀ keys : List Key, s.icom.awaiting = some p →
      (x.present = true → exec (.pollReply p keys) s = .next (seen true 0 keys)) ∧
      (x.present = false → exec (.pollReply p keys) s = .next ((seen true 0 keys).withEvent .stationFound p.val 0))) ∧
    (s.icom.awaiting = some p → x.misses ≤ 2 → exec (.pollMiss p) s = .next (seen x.present (x.misses + 1) [])) ∧
    (s.icom.awaiting = some p → x.misses = 3 → exec (.pollMiss p) s = .next (seen x.present 3 [])) ∧
    (x.present = true → x.misses = 3 →
      let gone : State := State.withEvent { s with icom := { s.icom with
        presence := put s.icom.presence p { present := false, misses := 3 } } } .stationLost p.val 0
      (s.callOf p = none → s.icom.table[p] = none → exec (.stationLost p) s = .next gone) ∧
      ∃ t : State, exec (.stationLost p) s = .next t ∧ t.icom.presence = gone.icom.presence ∧
        (s.ctl.events.length < 16 → gone.ctl.events <+: t.ctl.events) ∧
        (∀ c : Call, s.callOf p = some c → ∀ y ∈ t.icom.calls, y.id ≠ c.id) ∧
        (∀ e : Station, s.icom.table[p] = some e →
          t.icom.table[p] = some { e with cueTimer := 0, cueDue := false } ∧
          ∀ q ∈ t.pages.queue, q.id.toNat ≠ 65280 + p.val) ∧
        t.mix = s.mix ∧ t.alarm = s.alarm ∧ t.clips.memory = s.clips.memory ∧
        (s.callsOk → s.pagesOk →
          let v : State := match s.callOf p with
            | some c => gone.callOver c 6
            | none => gone
          (s.icom.table[p] = none → t = v) ∧
          (s.icom.table[p] ≠ none → (∀ q ∈ s.pages.queue, q.id.toNat ≠ 65280 + p.val) → t = v.withCue p 0) ∧
          (s.icom.table[p] ≠ none → ∀ q ∈ s.pages.queue, q.id.toNat = 65280 + p.val →
            t = (v.withCue p 0).pageOver q 5))) ∧
    (∀ e : Station, s.icom.table[p] = some e → e.cueDue = true →
      exec (.cueTimerExpiry p) s = .next (s.withCue p 0))

/-- CALL and EMERGENCY: discarded but from an IDLE station; refused with three seconds of BUSY; or a LOCAL call, or a
TRUNK OUT call with CALL WANTED; an EMERGENCY ends a NORMAL call of the called station PRE-EMPTED and takes its place
(R134 to R136, R143, R144). A port without an entry discards both (R129). That a key command handles the event at the
head of the waiting list and takes it off is the model's choice (log entry 19). -/
def Obligations.CallKeysCreateCalls : Prop :=
  (∀ (s : State) (p : Fin 32) (n : DirNumber) (rest : List (Fin 32 × Key)), s.icom.table[p] = none →
    (s.icom.keys = (p, .call n) :: rest → exec (.call p n) s = .next (s.withKeys rest)) ∧
    (s.icom.keys = (p, .emergency) :: rest → exec (.emergency p) s = .next (s.withKeys rest))) ∧
  ∀ (s : State) (p : Fin 32) (n : DirNumber) (emergency : Bool) (rest : List (Fin 32 × Key)) (e : Station),
    s.callsOk → s.icom.table[p] = some e →
    (if emergency then n = s.ctl.settings.emergency else True) →
    s.icom.keys = (p, if emergency then .emergency else .call n) :: rest →
    let i : Instr := if emergency then .emergency p else .call p n
    let u := s.withKeys rest
    let full := s.icom.calls.length = 16
    let found (b : Fin 32) : Prop := s.stationWith n = some b
    let createdFrom (u : State) (parties : CallParties) (state : CallState) : Prop := ∃ (t : State) (id : CallId),
      u.callCreated t (newRing id parties emergency 0 state) ∧
      exec i s = .next (if state = .wanted then t.withEvent .callWanted id.toNat 0 else t)
    (s.stationState p ≠ .idle → exec i s = .next u) ∧
    (s.stationState p = .idle → emergency = true → n = 0 → exec i s = .next u) ∧
    (s.stationState p = .idle → (emergency = true → n ≠ 0) →
      (emergency = false → full → exec i s = .next (u.withCue p 144000)) ∧
      (found p → exec i s = .next (u.withCue p 144000)) ∧
      (s.stationWith n = none → full → exec i s = .next (u.withCue p 144000)) ∧
      (s.stationWith n = none → ¬ full → createdFrom u (.trunkOut p n) .wanted) ∧
      (∀ b : Fin 32, b ≠ p → found b →
        (s.stationState b = .idle → full → exec i s = .next (u.withCue p 144000)) ∧
        (s.stationState b = .idle → ¬ full → createdFrom u (.loc p b) .ringing) ∧
        (s.stationState b = .absent → exec i s = .next (u.withCue p 144000)) ∧
        (s.stationState b ≠ .idle → emergency = false → exec i s = .next (u.withCue p 144000)) ∧
        (∀ c : Call, s.callOf b = some c → s.stationState b ≠ .absent → emergency = true →
          (c.emergency = true → exec i s = .next (u.withCue p 144000)) ∧
          (c.emergency = false → createdFrom (u.callOver c 4) (.loc p b) .ringing))))

/-- ANSWER connects a LOCAL call, or holds it under hold, and sets answered in a TRUNK IN call, with CALL ANSWERED;
HANG UP ends the call of a party with its cause, and silences an IDLE station's cue (R134, R137, R138, R141, R145). A
port without an entry discards both (R129). That a key command handles the event at the head of the waiting list and
takes it off is the model's choice (log entry 19). -/
def Obligations.AnswerAndHangUpMoveTheCall : Prop :=
  (∀ (s : State) (p : Fin 32) (rest : List (Fin 32 × Key)), s.icom.table[p] = none →
    (s.icom.keys = (p, .answer) :: rest → exec (.answer p) s = .next (s.withKeys rest)) ∧
    (s.icom.keys = (p, .hangUp) :: rest → exec (.hangUp p) s = .next (s.withKeys rest))) ∧
  ∀ (s : State) (p : Fin 32) (rest : List (Fin 32 × Key)) (e : Station), s.callsOk → s.icom.table[p] = some e →
    let u := s.withKeys rest
    (s.icom.keys = (p, .answer) :: rest →
      (s.stationState p ≠ .ringing → exec (.answer p) s = .next u) ∧
      (∀ c : Call, s.stationState p = .ringing → s.callOf p = some c →
        let t := u.withCue p 0
        let changed (f : Call → Call) : State := { t with icom := { t.icom with
          calls := s.icom.calls.map (fun x => if x.id = c.id then f x else x) } }
        ((∃ a b, c.parties = .loc a b) →
          (s.heldNow c → exec (.answer p) s =
            .next (changed (fun x => { x with state := .held, holdTimer := 0 }))) ∧
          (¬ s.heldNow c → exec (.answer p) s = .next (changed (fun x => { x with state := .connected })))) ∧
        ((∀ a b, c.parties ≠ .loc a b) → exec (.answer p) s =
          .next ((changed (fun x => { x with answered := true })).withEvent .callAnswered c.id.toNat 0)))) ∧
    (s.icom.keys = (p, .hangUp) :: rest →
      (s.stationState p = .absent → exec (.hangUp p) s = .next u) ∧
      (s.stationState p = .idle → exec (.hangUp p) s = .next (u.withCue p 0)) ∧
      (∀ c : Call, s.stationState p ≠ .absent → s.callOf p = some c → exec (.hangUp p) s = .next (u.callOver c
        (match c.state, c.parties with
          | .wanted, _ => 2
          | .ringing, .loc a _ => if p = a then 2 else 1
          | .ringing, .trunkOut _ _ => 2
          | _, _ => 1))))

/-- PAGE PRESS queues the station's page or is refused, PAGE RELEASE ends it COMPLETED or CANCELLED, and the VOLUME
keys move the trim step of the volume zone by one within its limits; the keys of an ABSENT station, and of a port
without an entry, are discarded (R61, R125, R129, R134, R148). Choices of the model: a key command handles the event at
the head of the waiting list and takes it off (log entry 19), the passes are only made due (log entry 15), a new record
has the phase AUDIO (log entry 56), a player given back has nothing to fetch (log entry 48), and a PAGE RELEASE that
finds no page sets the cue timer to 0 all the same (log entry 58). -/
def Obligations.PageAndVolumeKeysActForTheirStation : Prop :=
  (∀ (s : State) (p : Fin 32) (rest : List (Fin 32 × Key)), s.icom.table[p] = none →
    (s.icom.keys = (p, .pagePress) :: rest → exec (.pagePress p) s = .next (s.withKeys rest)) ∧
    (s.icom.keys = (p, .pageRelease) :: rest → exec (.pageRelease p) s = .next (s.withKeys rest)) ∧
    (s.icom.keys = (p, .volumeUp) :: rest → exec (.volumeUp p) s = .next (s.withKeys rest)) ∧
    (s.icom.keys = (p, .volumeDown) :: rest → exec (.volumeDown p) s = .next (s.withKeys rest))) ∧
  ∀ (s : State) (p : Fin 32) (rest : List (Fin 32 × Key)) (e : Station), s.icom.table[p] = some e →
    let u := s.withKeys rest
    let own : PageId := BitVec.ofNat 16 (65280 + p.val)
    let absent := s.stationState p = .absent
    let refused := (∃ q ∈ s.pages.queue, q.id = own) ∨ 32 ≤ s.pages.queue.length ∨ e.pageGroup = 0
    (s.icom.keys = (p, .pagePress) :: rest →
      (absent → exec (.pagePress p) s = .next u) ∧
      (s.stationState p = .idle → refused → exec (.pagePress p) s = .next (u.withCue p 144000)) ∧
      (¬ absent → s.stationState p ≠ .idle → refused → exec (.pagePress p) s = .next u) ∧
      (¬ absent → ¬ refused →
        let page : Page :=
          { id := own, priority := e.pagePrio, origin := .station p, source := .liveInput e.mic, chime := none
            zones := e.pageGroup, whole := false, repeats := 1, gap := 0, waitLife := 0, playLimit := e.pageLimit
            gain := 16384, arrival := s.pages.nextArrival, state := .waiting, granted := 0, joining := 0
            player := none, current := 1, phase := .audio, waitTimer := 0, playTimer := 0, sourceLoss := 0
            restartIn := none, started := false, suspPosted := false }
        ∃ before after : List Page, s.pages.queue = before ++ after ∧
          (∀ q ∈ after.head?, q.priority < page.priority) ∧ (∀ q ∈ before, page.priority ≤ q.priority) ∧
          exec (.pagePress p) s = .next { u.withCue p 0 with pages :=
            { queue := before ++ page :: after, nextArrival := s.pages.nextArrival + 1
              passes := s.pages.passes + 1 } })) ∧
    (s.icom.keys = (p, .pageRelease) :: rest →
      (absent → exec (.pageRelease p) s = .next u) ∧
      (¬ absent → (∀ q ∈ s.pages.queue, q.id ≠ own) → exec (.pageRelease p) s = .next (u.withCue p 0)) ∧
      (∀ (before after : List Page) (q : Page), ¬ absent → s.pages.queue = before ++ q :: after → q.id = own →
        (∀ r ∈ before, r.id ≠ own) →
        exec (.pageRelease p) s = .next ((u.withCue p 0).pageOver q (if q.state = .playing then 1 else 2)))) ∧
    (∀ down : Bool, s.icom.keys = (p, if down then .volumeDown else .volumeUp) :: rest →
      let i : Instr := if down then .volumeDown p else .volumeUp p
      (absent ∨ e.volumeZone = none → exec i s = .next u) ∧
      (∀ z : Fin 24, ¬ absent → e.volumeZone = some z →
        let l := s.mix.zoneLocal[z]
        exec i s = .next { u with mix := { s.mix with
          zoneLocal := put s.mix.zoneLocal z
            { l with trimStep := if down then (if l.trimStep < l.trimLimit then l.trimStep + 1 else l.trimStep)
              else l.trimStep - 1 } } }))

/-- SET STATION: NOT FOUND, IN USE, DUPLICATE and NOT ALLOWED in this order; taken, the entry of the port is removed,
or written with the clamped values, a replaced entry keeping its station state (R129, R130). That it keeps its cue
timer, and an expiry of it that is due, is log entry 20 (DEDUCED). -/
def Obligations.SetStationWritesOneEntry : Prop :=
  ∀ (s : State) (a : NodeAddr) (low : BitVec 8) (p : Fin 32)
    (n breakIn prio limit w2 w3 w4 w6 w7 w10 : Word16) (mic speaker : Fin 32) (listen volume : Option (Fin 24))
    (group : ZoneSet),
    let used := (∃ c ∈ s.icom.calls, p ∈ c.stations) ∨ ∃ q ∈ s.pages.queue, q.id.toNat = 65280 + p.val
    let written (x : Option Station) : State :=
      State.answered { s with icom := { s.icom with table := put s.icom.table p x } } 0x40 .ok []
    s.asked a [word p.val, n, w2, w3, w4, breakIn, w6, w7, prio, limit, w10] →
    (n = 0 →
      (s.icom.table[p] = none → exec (.setStation a low) s = .next (s.answered 0x40 .notFound [])) ∧
      (s.icom.table[p] ≠ none → used → exec (.setStation a low) s = .next (s.answered 0x40 .inUse [])) ∧
      (s.icom.table[p] ≠ none → ¬ used → exec (.setStation a low) s = .next (written none))) ∧
    (1 ≤ n.toNat → n.toNat ≤ 9999 → w2 = word mic.val → w3 = word speaker.val → w4 = optionWord listen →
      zoneWords group w6 w7 → w10 = optionWord volume →
      let other := ∃ q : Fin 32, q ≠ p ∧ s.numberAt (BitVec.ofNat 14 n.toNat) q ∧
        ∀ r : Fin 32, r < q → ¬ s.numberAt (BitVec.ofNat 14 n.toNat) r
      let allowed := s.ports.channels[speaker] = .station p
      let x : Station :=
        { number := BitVec.ofNat 14 n.toNat, mic := mic, speaker := speaker, listen := listen
          breakIn := min 16 (max 1 breakIn.toNat), pageGroup := group, pagePrio := min 15 (max 1 prio.toNat)
          pageLimit := min 600 (max 1 limit.toNat), volumeZone := volume
          cueTimer := ((s.icom.table[p]).map (·.cueTimer)).getD 0
          cueDue := ((s.icom.table[p]).map (·.cueDue)).getD false }
      (used → exec (.setStation a low) s = .next (s.answered 0x40 .inUse [])) ∧
      (¬ used → other → exec (.setStation a low) s = .next (s.answered 0x40 .duplicate [])) ∧
      (¬ used → ¬ other → ¬ allowed → exec (.setStation a low) s = .next (s.answered 0x40 .notAllowed [])) ∧
      (¬ used → ¬ other → allowed → exec (.setStation a low) s = .next (written (some x))))

/-- OFFER CALL: NOT FOUND, BUSY, FULL, or a TRUNK IN call with its id in the reply, at once or by pre-emption; BRIDGE
CALL: NOT FOUND, NOT ALLOWED, CONFLICT, or both slots, the dynamic insert, and CONNECTED or HELD (R14, R139, R140,
R144, R145). -/
def Obligations.TrunkRequestsFollowTheirTables : Prop :=
  ∀ (s : State) (a : NodeAddr) (low : BitVec 8), s.callsOk →
    (∀ (emergency : Bool) (n remote : Nat) (ref : Word16), 1 ≤ n → n ≤ 9999 → 1 ≤ remote → remote ≤ 9999 →
      s.asked a [word (n + if emergency then 32768 else 0), word remote, ref] →
      let held := s.stationWith (BitVec.ofNat 14 n)
      let created (u : State) (p : Fin 32) : Prop := ∃ (t : State) (id : CallId),
        u.callCreated t (newRing id (.trunkIn p (BitVec.ofNat 14 remote)) emergency ref .ringing) ∧
        exec (.offerCall a low) s = .next (t.answered 0x41 .ok [word id.toNat])
      (held = none → exec (.offerCall a low) s = .next (s.answered 0x41 .notFound [])) ∧
      (∀ p : Fin 32, held = some p →
        (s.stationState p = .absent → exec (.offerCall a low) s = .next (s.answered 0x41 .busy [])) ∧
        (s.stationState p = .idle → s.icom.calls.length = 16 →
          exec (.offerCall a low) s = .next (s.answered 0x41 .full [])) ∧
        (s.stationState p = .idle → s.icom.calls.length < 16 → created s p) ∧
        (∀ c : Call, s.stationState p ≠ .absent → s.callOf p = some c →
          (emergency = false ∨ c.emergency = true →
            exec (.offerCall a low) s = .next (s.answered 0x41 .busy [])) ∧
          (emergency = true → c.emergency = false → created (s.callOver c 4) p)))) ∧
    (∀ (id : CallId) (tx rx : Fin 64), id ≠ 0 → s.asked a [word id.toNat, word tx.val, word rx.val] →
      ((∀ c ∈ s.icom.calls, c.id ≠ id) → exec (.bridgeCall a low) s = .next (s.answered 0x42 .notFound [])) ∧
      (∀ c ∈ s.icom.calls, c.id = id →
        let may := (∃ x n, c.parties = .trunkOut x n ∧ c.state = .wanted) ∨
          ∃ x n, c.parties = .trunkIn x n ∧ c.state = .ringing ∧ c.answered = true
        let named := ∃ i ∈ s.ring.inserts, i.slot = tx
        (¬ may → exec (.bridgeCall a low) s = .next (s.answered 0x42 .notAllowed [])) ∧
        (may → named → exec (.bridgeCall a low) s = .next (s.answered 0x42 .conflict [])) ∧
        (may → ¬ named → ∃ y : Call,
          (s.heldNow c → y = { c with tx := some tx, rx := some rx, state := .held, holdTimer := 0 }) ∧
          (¬ s.heldNow c → y = { c with tx := some tx, rx := some rx, state := .connected }) ∧
          exec (.bridgeCall a low) s = .next (State.answered
            { s with
              ring := { s.ring with inserts :=
                s.ring.inserts ++ [{ slot := tx, source := .trunkCall id, clash := 0, reported := false }] }
              icom := { s.icom with calls := s.icom.calls.map (fun x => if x.id = id then y else x) } }
            0x42 .ok []))))

/-- END CALL ends a call with the given cause and READ CALL reports one; a call rung for the ring timeout ends NO
ANSWER, and one held for the hold limit HELD TOO LONG (R141, R142, R149). That both change nothing in a CONNECTED call
is the model's choice (log entry 5). -/
def Obligations.CallsEndAndAreRead : Prop :=
  ∀ (s : State) (a : NodeAddr) (low : BitVec 8) (id : CallId), s.callsOk → id ≠ 0 →
    (∀ cause : Nat, 10 ≤ cause → cause ≤ 15 → s.asked a [word id.toNat, word cause] →
      ((∀ c ∈ s.icom.calls, c.id ≠ id) → exec (.endCall a low) s = .next (s.answered 0x43 .notFound [])) ∧
      ∀ c ∈ s.icom.calls, c.id = id → exec (.endCall a low) s = .next ((s.callOver c cause).answered 0x43 .ok [])) ∧
    (s.asked a [word id.toNat] →
      ((∀ c ∈ s.icom.calls, c.id ≠ id) → exec (.readCall a low) s = .next (s.answered 0x44 .notFound [])) ∧
      ∀ c ∈ s.icom.calls, c.id = id → exec (.readCall a low) s = .next (s.answered 0x44 .ok
        [ word ((match c.parties with
            | .loc _ _ => 1
            | .trunkOut _ _ => 2
            | .trunkIn _ _ => 3) + (if c.emergency then 4 else 0) +
            8 * (match c.state with
              | .wanted => 1
              | .ringing => 2
              | .connected => 3
              | .held => 4) + (if c.answered then 64 else 0) +
            256 * (match c.parties with
              | .loc x _ => x.val
              | .trunkOut x _ => x.val
              | .trunkIn x _ => x.val)),
          (match c.parties with
            | .loc _ y => word (32768 + y.val)
            | .trunkOut _ n => word n.toNat
            | .trunkIn _ n => word n.toNat),
          c.headRef, word ((c.tx.map Fin.val).getD 255 + 256 * (c.rx.map Fin.val).getD 255),
          word (c.ringTimer / 48000), word (c.holdTimer / 48000) ])) ∧
    ∀ c ∈ s.icom.calls, c.id = id →
      (c.state = .wanted ∨ c.state = .ringing → s.ctl.settings.ringTimeout * 48000 ≤ c.ringTimer →
        exec (.callNoAnswer id) s = .next (s.callOver c 3)) ∧
      (c.state = .held → s.ctl.settings.holdLimit * 48000 ≤ c.holdTimer →
        exec (.callHeldTooLong id) s = .next (s.callOver c 5)) ∧
      (c.state = .connected →
        exec (.callNoAnswer id) s = .next s ∧ exec (.callHeldTooLong id) s = .next s)

/-! ### Alarms -/

/-- A pattern without a loaded step plays as pattern 0; any other is as long as its lowest loaded last step makes it,
16 steps without one, and a step of it that is not loaded is silent for one tick (R151). SET PATTERN STEP loads one
step of a pattern no SOUNDING record names; SET CONTACT replaces the settings of a line and keeps its debounce; SET
GROUP replaces a group's zones, and coverage is computed anew when a SOUNDING record names the group (R151, R152, R157,
R158). -/
def Obligations.AlarmTablesAreWritten : Prop :=
  (∀ (x : Alarm) (p : Fin 8),
    let loaded (q : Fin 7) (i : Fin 16) : Option PatternStep := (x.patterns[q])[i]
    ((∀ (q : Fin 7) (i : Fin 16), q.val + 1 = p.val → loaded q i = none) →
      x.length p = 1 ∧ ∀ n : Nat, x.stepAt p n =
        { mode := .steady, duration := 100, n1 := 60, n2 := 0, amplitude := 4194304, last := true }) ∧
    (∀ q : Fin 7, q.val + 1 = p.val → (∃ i, loaded q i ≠ none) →
      (∀ i : Fin 16, (∀ y, loaded q i = some y → x.stepAt p i.val = y) ∧
        (loaded q i = none → (x.stepAt p i.val).mode = .silent ∧ (x.stepAt p i.val).duration = 1)) ∧
      (∀ (i : Fin 16) (y : PatternStep), loaded q i = some y → y.last = true →
        (∀ (j : Fin 16) (z : PatternStep), j < i → loaded q j = some z → z.last = false) → x.length p = i.val + 1) ∧
      ((∀ (i : Fin 16) (y : PatternStep), loaded q i = some y → y.last = false) → x.length p = 16))) ∧
  ∀ (s : State) (a : NodeAddr) (low : BitVec 8),
    (∀ (pattern : Fin 7) (i : Fin 16) (last : Bool) (mode : StepMode) (m : Nat) (duration n1 n2 hi lo : Word16),
      (mode = .steady ∧ m = 0) ∨ (mode = .sweep ∧ m = 1) ∨ (mode = .silent ∧ m = 2) → hi.toNat ≤ 127 →
      s.asked a [word (256 * (pattern.val + 1) + 16 * i.val + (if last then 4 else 0) + m), duration, n1, n2, hi, lo] →
      let used := ∃ (e : Fin 8) (r : AlarmRec), s.alarm.records[e] = some r ∧ r.sounding = true ∧
        r.pattern.val = pattern.val + 1
      (used → exec (.setPatternStep a low) s = .next (s.answered 0x48 .inUse [])) ∧
      (¬ used → exec (.setPatternStep a low) s = .next (State.answered
        { s with alarm := { s.alarm with
          patterns := put s.alarm.patterns pattern (put s.alarm.patterns[pattern] i (some
            { mode := mode, duration := min 1000 (max 1 duration.toNat), n1 := n1.toNat, n2 := n2.toNat
              amplitude := hi.toNat * 65536 + lo.toNat, last := last })) } } 0x48 .ok []))) ∧
    (∀ (k : Fin 4) (cls : AlarmClass) (group pattern : Fin 8) (broadcast : Bool),
      s.asked a [word k.val, word (cls.rank + 4 * group.val + 32 * pattern.val + if broadcast then 256 else 0)] →
      exec (.setContact a low) s = .next (State.answered
        { s with alarm := { s.alarm with
          contacts := put s.alarm.contacts k
            { s.alarm.contacts[k] with cls := cls, group := group, pattern := pattern, broadcast := broadcast } } }
        0x49 .ok [])) ∧
    (∀ (g : Fin 8) (zones : ZoneSet) (zlo zhi : Word16), zoneWords zones zlo zhi → zones ≠ 0 →
      s.asked a [word g.val, zlo, zhi] →
      let sounding := ∃ (e : Fin 8) (r : AlarmRec), s.alarm.records[e] = some r ∧ r.sounding = true ∧ r.group = g
      let t : State := { s with alarm := { s.alarm with groups := put s.alarm.groups g zones } }
      (¬ sounding → exec (.setGroup a low) s = .next (t.answered 0x4A .ok [])) ∧
      (sounding → exec (.setGroup a low) s = .next ((t.recoverage s.alarm).answered 0x4A .ok [])))

/-- ALARM START: DUPLICATE, FULL, or a record in the lowest free shared entry; ALARM STOP: NOT FOUND or the record's
end; SILENCE ALARM: NOT FOUND, NOT ALLOWED for GENERAL, or SILENCED. Each record starts or ends with its event, its
place in the start order and, when it broadcasts, its word in the send list, and coverage is then computed anew and
handed on, as CoverageFollowsTheRecords says: after each start, and after the end or the silencing of a SOUNDING record
(R21, R154, R155, R159 to R161, R165). That the event of a record comes before those of the pages its coverage suspends
is the model's choice (log entry 46), and the marks of the send list are its own record (log entry 12). That the voice
factor of a record without a voice slot is 4,096 whatever word 6 holds is log entry 28 (DEDUCED). -/
def Obligations.AlarmRequestsFollowTheirTables : Prop :=
  ∀ (s : State) (a : NodeAddr) (low : BitVec 8),
    (∀ (id : BitVec 8) (cls : AlarmClass) (group pattern : Fin 8) (voice : Option (Fin 64)) (broadcast : Bool)
      (factor : Word16), id ≠ 0 →
      s.asked a [word id.toNat, word cls.rank, word group.val, word pattern.val, optionWord voice,
        word broadcast.toNat, factor] →
      let present := ∃ (e : Fin 8) (r : AlarmRec), s.alarm.records[e] = some r ∧ r.origin = .request id
      let record : AlarmRec :=
        { origin := .request id, cls := cls, group := group, pattern := pattern, voiceSlot := voice
          voiceFactor := if voice = none ∨ factor = 65535 then 4096 else min 16384 factor.toNat
          broadcast := broadcast, sounding := true, refreshTimer := 0, broadcastTimer := 0 }
      (present → exec (.alarmStart a low) s = .next (s.answered 0x4B .duplicate [])) ∧
      (¬ present → (∀ e : Fin 8, 4 ≤ e.val → s.alarm.records[e] ≠ none) →
        exec (.alarmStart a low) s = .next (s.answered 0x4B .full [])) ∧
      (∀ e : Fin 8, ¬ present → 4 ≤ e.val → s.alarm.records[e] = none →
        (∀ f : Fin 8, 4 ≤ f.val → f < e → s.alarm.records[f] ≠ none) →
        ∃ t : State, exec (.alarmStart a low) s = .next (t.answered 0x4B .ok []) ∧ t = s.recordStarted e record ∧
          t.alarm.records = put s.alarm.records e (some record) ∧
          t.alarm.startOrder = s.alarm.startOrder.filter (· != e) ++ [e] ∧
          (s.ctl.events.length < 16 →
            (s.withEvent .alarmBegun e.val cls.rank).ctl.events <+: t.ctl.events) ∧
          (broadcast = false → t.ring.sendList = s.ring.sendList) ∧
          (broadcast = true → t.ring.sendList = SendWord.placedIn
            { entry := e, on := true, group := group, cls := cls, pattern := pattern, fresh := true }
            s.ring.sendList) ∧ t.ring.address = s.ring.address ∧ t.ring.forward = s.ring.forward ∧
          t.alarm.contacts = s.alarm.contacts ∧ t.alarm.groups = s.alarm.groups ∧
          t.alarm.patterns = s.alarm.patterns ∧ t.mix = s.mix ∧ t.clips.memory = s.clips.memory)) ∧
    (∀ id : BitVec 8, id ≠ 0 → s.asked a [word id.toNat] →
      ((∀ (e : Fin 8) (r : AlarmRec), s.alarm.records[e] = some r → r.origin ≠ .request id) →
        exec (.alarmStop a low) s = .next (s.answered 0x4C .notFound [])) ∧
      (∀ (e : Fin 8) (r : AlarmRec), s.alarm.records[e] = some r → r.origin = .request id →
        (∀ f : Fin 8, f < e → ∀ x, s.alarm.records[f] = some x → x.origin ≠ .request id) →
        ∃ t : State, exec (.alarmStop a low) s = .next (t.answered 0x4C .ok []) ∧ t = s.recordEnded e r 2 ∧
          t.alarm.records = put s.alarm.records e none ∧
          t.alarm.startOrder = s.alarm.startOrder.filter (· != e) ∧
          (s.ctl.events.length < 16 → (s.withEvent .alarmEnded e.val 2).ctl.events <+: t.ctl.events) ∧
          (r.broadcast = true → t.ring.sendList = SendWord.placedIn
            { entry := e, on := false, group := r.group, cls := r.cls, pattern := r.pattern, fresh := true }
            s.ring.sendList) ∧ (r.broadcast = false → t.ring.sendList = s.ring.sendList) ∧
          t.alarm.contacts = s.alarm.contacts ∧ t.mix = s.mix ∧ t.clips.memory = s.clips.memory)) ∧
    (∀ e : Fin 8, s.asked a [word e.val] →
      (s.alarm.records[e] = none → exec (.silenceAlarm a low) s = .next (s.answered 0x4D .notFound [])) ∧
      (∀ r : AlarmRec, s.alarm.records[e] = some r →
        (r.cls = .general → exec (.silenceAlarm a low) s = .next (s.answered 0x4D .notAllowed [])) ∧
        (r.cls ≠ .general → r.sounding = false → exec (.silenceAlarm a low) s = .next (s.answered 0x4D .ok [])) ∧
        (r.cls ≠ .general → r.sounding = true → ∃ t : State,
          exec (.silenceAlarm a low) s = .next (t.answered 0x4D .ok []) ∧
          t = State.recoverage { s with alarm := { s.alarm with
            records := put s.alarm.records e (some { r with sounding := false }) } } s.alarm ∧
          t.alarm.records = put s.alarm.records e (some { r with sounding := false }) ∧
          t.alarm.startOrder = s.alarm.startOrder ∧ t.ring.sendList = s.ring.sendList ∧
          (∀ z : Fin 24, t.alarm.coverage[z] ≠ some e) ∧ t.mix = s.mix ∧ t.clips.memory = s.clips.memory)))

/-- A contact line becomes ACTIVE after 2,400 samples and IDLE after 48,000, starting and ending its record, which
joins or leaves the start order and, when it broadcasts, places ON or OFF in the send list, coverage being computed
anew and handed on after a start and after the end of a SOUNDING record, as CoverageFollowsTheRecords says; a record
that broadcasts places ON again after 96,000 periods; a REMOTE record of 288,000 periods ends; a generator's step ends
with its samples (R21, R153 to R156, R162, R163, R165). That the event of a record comes before those of the pages its
coverage suspends is the model's choice (log entry 46), and the marks of the send list are its own record (log entry
12). -/
def Obligations.AlarmTimersAndContactsAct : Prop :=
  ∀ s : State,
    (∀ k : Fin 4,
      let c := s.alarm.contacts[k]
      let e : Fin 8 := ⟨k.val, by omega⟩
      let line (x : Contact) : State := { s with alarm := { s.alarm with contacts := put s.alarm.contacts k x } }
      let record : AlarmRec :=
        { origin := .contact k, cls := c.cls, group := c.group, pattern := c.pattern, voiceSlot := none
          voiceFactor := 4096, broadcast := c.broadcast, sounding := true, refreshTimer := 0, broadcastTimer := 0 }
      (c.active = false → c.run = 2400 → ∃ t : State, exec (.contactActivate k) s = .next t ∧
        t = (line { c with active := true, run := 0 }).recordStarted e record ∧
        t.alarm.contacts = put s.alarm.contacts k { c with active := true, run := 0 } ∧
        t.alarm.records = put s.alarm.records e (some record) ∧
        t.alarm.startOrder = s.alarm.startOrder.filter (· != e) ++ [e] ∧
        (s.ctl.events.length < 16 → (s.withEvent .alarmBegun k.val c.cls.rank).ctl.events <+: t.ctl.events) ∧
        t.ring.sendList =
          (if c.broadcast then SendWord.placedIn
            { entry := e, on := true, group := c.group, cls := c.cls, pattern := c.pattern, fresh := true }
            s.ring.sendList else s.ring.sendList) ∧
        t.mix = s.mix ∧ t.clips.memory = s.clips.memory) ∧
      (c.active = true → c.run = 48000 → ∃ t : State, exec (.contactClear k) s = .next t ∧
        t.alarm.contacts = put s.alarm.contacts k { c with active := false, run := 0 } ∧
        t.alarm.records[e] = none ∧ (∀ f : Fin 8, f ≠ e → t.alarm.records[f] = s.alarm.records[f]) ∧
        (s.alarm.records[e] ≠ none → s.ctl.events.length < 16 →
          (s.withEvent .alarmEnded k.val 1).ctl.events <+: t.ctl.events) ∧
        (s.alarm.records[e] = none → t = line { c with active := false, run := 0 } ∧
          t.alarm.startOrder = s.alarm.startOrder ∧ t.ring.sendList = s.ring.sendList ∧ t.ctl = s.ctl) ∧
        (∀ r : AlarmRec, s.alarm.records[e] = some r →
          t = (line { c with active := false, run := 0 }).recordEnded e r 1 ∧
          t.alarm.startOrder = s.alarm.startOrder.filter (· != e) ∧
          t.ring.sendList =
            (if r.broadcast then SendWord.placedIn
              { entry := e, on := false, group := r.group, cls := r.cls, pattern := r.pattern, fresh := true }
              s.ring.sendList else s.ring.sendList)) ∧
        t.mix = s.mix ∧ t.clips.memory = s.clips.memory)) ∧
    (∀ (e : Fin 8) (r : AlarmRec), s.alarm.records[e] = some r →
      (r.broadcast = true → r.broadcastTimer = 96000 → exec (.broadcastRefresh e) s = .next
        { s with
          alarm := { s.alarm with records := put s.alarm.records e (some { r with broadcastTimer := 0 }) }
          ring := { s.ring with
            sendList := SendWord.placedIn
              { entry := e, on := true, group := r.group, cls := r.cls, pattern := r.pattern, fresh := true }
              s.ring.sendList } }) ∧
      ((∃ from_ group, r.origin = .remote from_ group) → r.refreshTimer = 288000 →
        ∃ t : State, exec (.notConfirmed e) s = .next t ∧ t = s.recordEnded e r 4 ∧
          t.alarm.records = put s.alarm.records e none ∧
          t.alarm.startOrder = s.alarm.startOrder.filter (· != e) ∧
          (s.ctl.events.length < 16 → (s.withEvent .alarmEnded e.val 4).ctl.events <+: t.ctl.events) ∧
          t.mix = s.mix ∧ t.clips.memory = s.clips.memory)) ∧
    (∀ (i : Fin 4) (g : Generator), s.alarm.generators[i] = some g →
      g.elapsed = (s.alarm.stepAt g.pattern g.step).duration * 480 →
      let after : Generator := { g with
        step := if g.step + 1 < s.alarm.length g.pattern then g.step + 1 else 0, elapsed := 0, position := 0 }
      exec (.generatorStepEnd i) s = .next { s with alarm := { s.alarm with
        generators := put s.alarm.generators i (some after) } })

/-- Coverage, computed anew from records that each stand once in the start order and generators that sound one record
each: a zone is covered exactly when a SOUNDING record's group has it, and its winner ranks above every other such
record (R165). The first four winning records hold generators: one that holds a generator keeps it as it is, the others
start their patterns on the free ones, in rank order and lowest first, and no other record holds one (R166). A change
in any zone's winner or its class is handed to the page scheduler (R118) and to the intercom switch, which holds the
CONNECTED calls that are under hold and resumes the HELD ones that no longer are (R145); the transmit insert of a held
call ends its activation (R16). That generators are taken in rank order is log entry 23, and that a change of a
winner's class is a change of coverage is log entry 25 (both DEDUCED). That the passes are only made due, that pages
suspended together post in queue order, and that a player given back has nothing to fetch are the model's choices (log
entries 15, 41 and 48). -/
def Obligations.CoverageFollowsTheRecords : Prop :=
  ∀ (s : State) (before : Alarm), s.recordsOk → s.callsOk →
    let a := s.alarm
    ∃ b : Alarm, b = { a with coverage := b.coverage, generators := b.generators } ∧
      let c : State := { s with alarm := b }
      let covers (z : Fin 24) (e : Fin 8) : Prop :=
        ∃ r, a.records[e] = some r ∧ r.sounding = true ∧ (a.groups[r.group]).getLsbD z.val = true
      let first (e : Fin 8) : Prop := b.wins e ∧
        ∃ l : List (Fin 8), l.length ≤ 3 ∧ ∀ f : Fin 8, b.wins f → b.above f e → f ∈ l
      let held (x : Alarm) (e : Fin 8) (i : Fin 4) : Prop := ∃ g, x.generators[i] = some g ∧ g.entry = e
      let winners (x : Alarm) : List (Option (Fin 8 × Option AlarmClass)) :=
        x.coverage.toList.map (fun w => w.map (fun e => (e, (x.records[e]).map (·.cls))))
      let hold (x : Call) : Prop := x.state = .connected ∧ c.heldNow x
      let resume (x : Call) : Prop := x.state = .held ∧ ¬ c.heldNow x
      (∀ (z : Fin 24) (e : Fin 8),
        b.coverage[z] = some e ↔ covers z e ∧ ∀ f : Fin 8, f ≠ e → covers z f → a.above e f) ∧
      (∀ (e : Fin 8) (i : Fin 4), held b e i → first e) ∧
      (∀ e : Fin 8, first e → ∃ i, held b e i) ∧
      (∀ (e : Fin 8) (i : Fin 4), first e → held a e i → b.generators[i] = a.generators[i]) ∧
      (∀ (e : Fin 8) (i : Fin 4) (r : AlarmRec), a.records[e] = some r → held b e i → (∀ j, ¬ held a e j) →
        b.generators[i] =
          some { entry := e, pattern := r.pattern, step := 0, elapsed := 0, position := 0, divider := 0 } ∧
        (∀ j < i, b.generators[j] ≠ none) ∧
        ∀ (f : Fin 8) (j : Fin 4), held b f j → (∀ k, ¬ held a f k) → a.above e f → i < j) ∧
      (winners b = winners before → s.recoverage before = c) ∧
      (winners b ≠ winners before → ∃ t : State, s.recoverage before = t ∧
        t = { c.handScheduler with icom := t.icom, ring := t.ring } ∧
        t.icom = { s.icom with calls := t.icom.calls } ∧ t.ring = { s.ring with inserts := t.ring.inserts } ∧
        t.icom.calls.length = s.icom.calls.length ∧ t.ring.inserts.length = s.ring.inserts.length ∧
        (∀ (n : Nat) (x : Call), s.icom.calls[n]? = some x →
          (hold x → t.icom.calls[n]? = some { x with state := .held, holdTimer := 0 }) ∧
          (resume x → t.icom.calls[n]? = some { x with state := .connected }) ∧
          (¬ hold x → ¬ resume x → t.icom.calls[n]? = some x)) ∧
        ∀ (n : Nat) (i : Insert), s.ring.inserts[n]? = some i →
          ((∃ x ∈ s.icom.calls, hold x ∧ i.source = .trunkCall x.id) →
            t.ring.inserts[n]? = some { i with clash := 0, reported := false }) ∧
          ((∀ x ∈ s.icom.calls, hold x → i.source ≠ .trunkCall x.id) → t.ring.inserts[n]? = some i))

/-! ### Line supervision and ambient tracking -/

/-- SET WINDOW, SET SCAN and READ LINES; the readings of the return lane; the end of a step with its classification and
fault record, and the end of a rest (R50, R170, R172 to R178). With B of 0 the burst count and the position are set
too, which is the model's choice (log entry 43), as is the kept discard of a channel disabled and enabled again within
one step of it (log entry 42) and the kept result of a step that ended before SET WINDOW in the same period (log entry
51). That the two timers and the held reading stay as they are outside a step or a rest is the model's choice (log
entry 55). That READ LINES shows bit 7 by the output frame of the period, after the end of a step in that period too,
is log entry 45 (DEDUCED). -/
def Obligations.LineSupervisionFollowsTheScan : Prop :=
  ∀ (s : State) (a : NodeAddr) (low : BitVec 8),
    let l := s.lines
    let isFault (f : FaultRec) : Prop := ∃ k r, f = .fault k r
    (∀ (c : Fin 32) (enabled : Bool) (lo hi : Nat), lo ≤ hi → hi ≤ 4095 →
      s.asked a [word c.val, word enabled.toNat, word lo, word hi] →
      let w : Window := { enabled := enabled, low := lo, high := hi }
      let off : State := { s with lines := { l with
        windows := put l.windows c w, faults := put l.faults c .ok
        discard := l.discard || decide (l.scanner = .stepping c) } }
      (enabled = true → exec (.setWindow a low) s = .next (State.answered
        { s with lines := { l with windows := put l.windows c w } } 0x50 .ok [])) ∧
      (enabled = false → ¬ isFault l.faults[c] → exec (.setWindow a low) s = .next (off.answered 0x50 .ok [])) ∧
      (enabled = false → isFault l.faults[c] →
        exec (.setWindow a low) s = .next ((off.withEvent .lineRestored c.val 0).answered 0x50 .ok []))) ∧
    (∀ (t : Fin 32) (b : Nat) (rest : Word16), b ≤ 255 → s.asked a [word t.val, word b, rest] →
      let settings : ScanSettings := { top := t, burst := b, rest := min 600 rest.toNat }
      ((∃ c, l.scanner = .stepping c) → exec (.setScan a low) s = .next (State.answered
        { s with lines := { l with pendingSet := some settings } } 0x51 .ok [])) ∧
      ((∀ c, l.scanner ≠ .stepping c) → exec (.setScan a low) s = .next (State.answered
        { s with lines := { l with
          settings := settings, pendingSet := none, burstCount := 0, position := t
          scanner := if b = 0 then .stopped else .choosing } } 0x51 .ok []))) ∧
    (s.asked a [] → (∀ (c : Fin 32) (k : FaultKind) (r : Nat), l.faults[c] = .fault k r → r ≤ 2) →
      ∃ ws : List Word16, exec (.readLines a low) s = .next (s.answered 0x52 .ok ws) ∧
      ∀ c : Fin 32, ∃ w, ws[c.val / 2]? = some w ∧ w.toNat / (if c.val % 2 = 0 then 1 else 256) % 256 =
        (match l.faults[c] with
          | .ok => 0
          | .suspect .short => 1 + 4
          | .suspect .opened => 1 + 8
          | .suspect .noReply => 1 + 12
          | .fault .short r => 2 + 4 + 16 * r
          | .fault .opened r => 2 + 8 + 16 * r
          | .fault .noReply r => 2 + 12 + 16 * r) + (if (l.windows[c]).enabled then 64 else 0) +
        (if s.ports.frameOut.measure.getLsbD c.val then 128 else 0)) ∧
    (∀ (rs : Vector LineReading 32) (c : Fin 32), l.scanner = .stepping c →
      exec (.returnLaneFrame rs) s = .next { s with lines := { l with
        held := if (rs[c]).valid then some (rs[c]).value.toNat else l.held } }) ∧
    (l.scanner = .resting → l.restTimer = l.settings.rest * 48000 →
      exec .scanRestEnd s = .next { s with lines := { l with scanner := .choosing } }) ∧
    (∀ c : Fin 32, l.scanner = .stepping c → l.stepTimer = 4800 →
      let more := l.burstCount + 1 < l.settings.burst
      let after : Lines := match l.pendingSet with
        | some p =>
          { l with
            settings := p, pendingSet := none, burstCount := 0, position := p.top
            scanner := if p.burst = 0 then .stopped else .choosing }
        | none =>
          { l with
            burstCount := if more then l.burstCount + 1 else 0
            restTimer := if ¬ more ∧ 0 < l.settings.rest then 0 else l.restTimer
            scanner := if ¬ more ∧ 0 < l.settings.rest then .resting else .choosing }
      let changed (f : FaultRec) : State := { s with lines := { after with faults := put l.faults c f } }
      let w := l.windows[c]
      let result : Option FaultKind := match l.held with
        | none => some .noReply
        | some r =>
          if r = 4095 then some .opened else if r < w.low then some .short
          else if w.high < r then some .opened else none
      (l.discard = true → exec .scanStepEnd s = .next { s with lines := after }) ∧
      (l.discard = false →
        (∀ k, l.faults[c] = .ok → result = some k → exec .scanStepEnd s = .next (changed (.suspect k))) ∧
        (l.faults[c] = .ok → result = none → exec .scanStepEnd s = .next (changed .ok)) ∧
        (∀ k, l.faults[c] = .suspect k → result = none → exec .scanStepEnd s = .next (changed .ok)) ∧
        (∀ k k', l.faults[c] = .suspect k → result = some k' → k ≠ k' →
          exec .scanStepEnd s = .next (changed (.suspect k'))) ∧
        (∀ k, l.faults[c] = .suspect k → result = some k →
          exec .scanStepEnd s = .next ((changed (.fault k 0)).withEvent .lineFault c.val
            (match k with
              | .short => 1
              | .opened => 2
              | .noReply => 3))) ∧
        (∀ k r, l.faults[c] = .fault k r → result = some k → exec .scanStepEnd s = .next (changed (.fault k 0))) ∧
        (∀ k r k', l.faults[c] = .fault k r → result = some k' → k ≠ k' →
          exec .scanStepEnd s = .next ((changed (.fault k' 0)).withEvent .lineFault c.val
            (match k' with
              | .short => 1
              | .opened => 2
              | .noReply => 3))) ∧
        (∀ k r, l.faults[c] = .fault k r → result = none → r ≤ 1 →
          exec .scanStepEnd s = .next (changed (.fault k (r + 1)))) ∧
        (∀ k, l.faults[c] = .fault k 2 → result = none →
          exec .scanStepEnd s = .next ((changed .ok).withEvent .lineRestored c.val 0))))

/-- SET TRACKER, RESET TRACKER and READ TRACKER; a block that ends frozen starts or counts the freeze tail and
evaluates nothing, any other records its evaluation, formed from the noise bins of its histograms, and moves the step
by at most one, and a new block begins (R180, R182 to R188). -/
def Obligations.TrackerRequestsAndBlocks : Prop :=
  ∀ (s : State) (a : NodeAddr) (low : BitVec 8) (z : Fin 24),
    let x := s.trackers[z]
    let has (position : Fin 2) : Prop := ∃ i : Fin 32, (s.ports.inputs[i]).role = .sense z position
    let reached (h : Vector Nat 16) (n : Nat) : Prop :=
      (480 * x.settings.percentile + 99) / 100 ≤ (h.toList.take (n + 1)).sum
    let lowest (h : Vector Nat 16) (n : Nat) : Prop := n ≤ 15 ∧ reached h n ∧ ∀ m < n, ¬ reached h m
    let with_ (y : ZoneTracker) : State :=
      let fresh : ZoneTracker :=
        { y with
          position := 1, hist0 := Vector.replicate 16 0, hist1 := Vector.replicate 16 0, freezeSeen := false
          blockDone := false }
      { s with trackers := put s.trackers z fresh }
    (∀ (p q : Nat) (slope kmin kmax rise fall seed : Word16), 1 ≤ p → p ≤ 99 → q ≤ 15 →
      s.asked a [word z.val, word p, word q, slope, kmin, kmax, rise, fall, seed] →
      let top := min 8 kmax.toNat
      let bottom := min kmin.toNat top
      exec (.setTracker a low) s = .next ((with_ { x with
        settings :=
          { percentile := p, quiet := q, slope := min 4 (max 1 slope.toNat), kmin := bottom, kmax := top
            rise := min 255 (max 1 rise.toNat), fall := min 255 (max 1 fall.toNat)
            seed := min top (max bottom seed.toNat) }
        k := min top (max bottom x.k), up := 0, down := 0 }).answered 0x58 .ok [])) ∧
    (s.asked a [word z.val] →
      exec (.resetTracker a low) s = .next ((with_ { x with
        k := x.settings.seed, up := 0, down := 0, freezeTail := 0, last := none }).answered 0x59 .ok []) ∧
      exec (.readTracker a low) s = .next (s.answered 0x5A .ok
        [ word (x.k + 16 * x.settings.kmin + 256 * x.settings.kmax + (if x.freezeSeen then 4096 else 0) +
            8192 * ((if ∃ i : Fin 32, (s.ports.inputs[i]).role = .sense z 0 then 1 else 0) +
              if ∃ i : Fin 32, (s.ports.inputs[i]).role = .sense z 1 then 1 else 0)),
          word x.ce,
          (match x.last with
            | none => 0
            | some e => word (e.n0 + 16 * e.n1 + 256 * e.n + 4096 * e.kdes)),
          word (x.freezeTail + 256 * (if 0 < x.up then x.up else x.down)) ])) ∧
    (x.blockDone = true →
      (x.freezeSeen = true → exec (.trackerBlockEnd z) s = .next (with_ { x with freezeTail := 20 })) ∧
      (x.freezeSeen = false → 0 < x.freezeTail →
        exec (.trackerBlockEnd z) s = .next (with_ { x with freezeTail := x.freezeTail - 1 })) ∧
      (x.freezeSeen = false → x.freezeTail = 0 → ∃ e : Evaluation,
        e.kdes = min x.settings.kmax (max x.settings.kmin ((e.n - x.settings.quiet) * x.settings.slope)) ∧
        (has 0 → (∀ n, lowest x.hist0 n → e.n0 = n) ∧ (¬ has 1 → e.n = e.n0)) ∧
        (has 1 → ∀ n, lowest x.hist1 n → (has 0 → e.n1 = n) ∧ (¬ has 0 → e.n = n)) ∧
        (has 0 → has 1 →
          e.n = if max e.n0 e.n1 - min e.n0 e.n1 ≤ 1 then (e.n0 + e.n1) / 2 else min e.n0 e.n1) ∧
        (e.kdes = x.k → exec (.trackerBlockEnd z) s =
          .next (with_ { x with up := 0, down := 0, last := some e })) ∧
        (x.k < e.kdes → exec (.trackerBlockEnd z) s = .next (with_
          (if x.settings.rise ≤ x.up + 1 then { x with k := x.k + 1, up := 0, down := 0, last := some e }
            else { x with up := x.up + 1, down := 0, last := some e }))) ∧
        (e.kdes < x.k → exec (.trackerBlockEnd z) s = .next (with_
          (if x.settings.fall ≤ x.down + 1 then { x with k := x.k - 1, up := 0, down := 0, last := some e }
            else { x with up := 0, down := x.down + 1, last := some e })))))

/-- What one cycle period does to the alarm engine, the scanner and the trackers. A contact line's run counts samples
that differ from its debounced level, a low line being active (R156); broadcast timers count, and refresh timers while
LOCKED (R162, R163); a held generator advances by one sample, at the divider of its period (R153). A scanner that is to
choose takes the first channel of role ZONE with an enabled window, of the t + 1 channels from its position downward,
or enters SEARCHING (R171); steps and rests count (R172, R173). A zone with a sense input counts each sample into its
bin and notes a freeze; a zone without one stays as it is (R182, R183, R186). That b is the state after the events of
the period before is the model's choice (log entry 2), and so is that the timers and the held reading of the scanner
stay as they are outside a step or a rest (log entry 55). -/
def Obligations.PeriodsCountAlarmsLinesAndTrackers : Prop :=
  ∀ (s : State) (frame : Vector RawSample 32) (contacts : BitVec 4),
    let u := if s.ring.arrived.isSome then s else closePeriod s
    let b := s.begun
    ∃ t : State, exec (.cyclePeriod frame contacts) s = .next t ∧
      (∀ k : Fin 4, t.alarm.contacts[k] = { b.alarm.contacts[k] with
        run := if (b.alarm.contacts[k]).active = !contacts.getLsbD k.val then 0
          else min 48000 ((b.alarm.contacts[k]).run + 1) }) ∧
      (∀ e : Fin 8,
        (b.alarm.records[e] = none → t.alarm.records[e] = none) ∧
        ∀ r : AlarmRec, b.alarm.records[e] = some r →
          let remote := ∃ origin group, r.origin = .remote origin group
          let counted (n : Nat) : AlarmRec := { r with
            broadcastTimer := if r.broadcast then min 96000 (r.broadcastTimer + 1) else r.broadcastTimer
            refreshTimer := n }
          (remote → s.ring.rx = .locked → t.alarm.records[e] = some (counted (min 288000 (r.refreshTimer + 1)))) ∧
          (¬ remote ∨ s.ring.rx ≠ .locked → t.alarm.records[e] = some (counted r.refreshTimer))) ∧
      (∀ i : Fin 4,
        (b.alarm.generators[i] = none → t.alarm.generators[i] = none) ∧
        ∀ g : Generator, b.alarm.generators[i] = some g →
          let p := b.alarm.stepAt g.pattern g.step
          let silent := p.mode = .silent ∨ p.n1 = 0 ∨ (p.mode = .sweep ∧ p.n2 = 0)
          let asked : Nat := if p.mode = .sweep then
              (if p.n1 ≤ p.n2 then p.n1 + (p.n2 - p.n1) * g.elapsed / (p.duration * 480)
                else p.n1 - (p.n1 - p.n2) * g.elapsed / (p.duration * 480))
            else p.n1
          let n := if g.position = 0 then min 4800 (max 24 asked) else g.divider
          (silent → g.sample p = 0 ∧ t.alarm.generators[i] = some { g with elapsed := g.elapsed + 1 }) ∧
          (¬ silent →
            (p.amplitude ≤ 8388607 →
              g.sample p = if 2 * g.position < n then (p.amplitude : Int) else -(p.amplitude : Int)) ∧
            t.alarm.generators[i] = some { g with
              elapsed := g.elapsed + 1, divider := n
              position := if g.position + 1 < n then g.position + 1 else 0 })) ∧
      (let l := u.lines
       let next (c : Fin 32) : Fin 32 := if c.val = 0 then l.settings.top else ⟨c.val - 1, by omega⟩
       let seen (j : Nat) : Fin 32 := next^[j] l.position
       let can (c : Fin 32) : Prop := (∃ z, u.ports.channels[c] = .zone z) ∧ (l.windows[c]).enabled = true
       let chooses := l.scanner = .choosing ∨ l.scanner = .searching
       (∀ j : Nat, chooses → j ≤ l.settings.top.val → can (seen j) → (∀ i < j, ¬ can (seen i)) →
         t.lines = { l with
           scanner := .stepping (seen j), position := next (seen j), stepTimer := 1, held := none, discard := false }) ∧
       (chooses → (∀ j : Nat, j ≤ l.settings.top.val → ¬ can (seen j)) →
         t.lines = { l with scanner := .searching }) ∧
       (∀ c : Fin 32, l.scanner = .stepping c → t.lines = { l with stepTimer := l.stepTimer + 1 }) ∧
       (l.scanner = .resting → t.lines = { l with restTimer := l.restTimer + 1 }) ∧
       (l.scanner = .stopped → t.lines = l)) ∧
      ∀ z : Fin 24,
        let x := b.trackers[z]
        let y := t.trackers[z]
        let at_ (position : Fin 2) (i : Fin 32) : Prop :=
          (s.ports.inputs[i]).role = .sense z position ∧ ∀ j < i, (s.ports.inputs[j]).role ≠ .sense z position
        let none_ (position : Fin 2) : Prop := ∀ i : Fin 32, (s.ports.inputs[i]).role ≠ .sense z position
        let inBin (v : Int) (n : Nat) : Prop :=
          (n = 0 ∧ v.natAbs < 256) ∨ (1 ≤ n ∧ n ≤ 14 ∧ 2 ^ (n + 7) ≤ v.natAbs ∧ v.natAbs < 2 ^ (n + 8)) ∨
          (n = 15 ∧ 4194304 ≤ v.natAbs)
        let counts (old new : Vector Nat 16) (v : Int) : Prop := ∀ n : Fin 16,
          (inBin v n.val → new[n] = old[n] + 1) ∧ (¬ inBin v n.val → new[n] = old[n])
        (none_ 0 → none_ 1 → y = { x with ce := y.ce }) ∧
        (¬ (none_ 0 ∧ none_ 1) →
          y = { x with
            ce := y.ce, hist0 := y.hist0, hist1 := y.hist1
            freezeSeen := x.freezeSeen || (b.holder z).any Page.audible || b.covered z
            position := if x.position < 480 then x.position + 1 else x.position
            blockDone := x.blockDone || decide (480 ≤ x.position) }) ∧
        (none_ 0 → y.hist0 = x.hist0) ∧ (none_ 1 → y.hist1 = x.hist1) ∧
        (∀ i : Fin 32, at_ 0 i → counts x.hist0 y.hist0 t.ports.samples[i]) ∧
        ∀ i : Fin 32, at_ 1 i → counts x.hist1 y.hist1 t.ports.samples[i]

/-! ### Page and call tables -/

/-- Through every step the page queue keeps its capacity, its order of priority and arrival, distinct ids, one holder
for each zone and one page for each player; a record holds zones of its zone set alone, and one that is not PLAYING
holds no zone and no player (R106, R109, R110, R113, R117). -/
def Obligations.PageQueueKeepsItsOrderAndHolders : Prop :=
  ∀ s t : State, s.pagesOk → step s = .next t → t.pagesOk

/-- No covered zone is held, and no zone is held by a page that its SHOW LOCKED threshold locks out, through every step
(R118). A zone that a TAKE of the period has still to hand over is left out until it has (log entry 14). -/
def Obligations.HeldZonesStayFreeToTheirHolders : Prop :=
  ∀ s t : State, s.pagesOk → s.zonesFree → step s = .next t → t.zonesFree

/-- Through every step the call table keeps its capacity and its ids, distinct and ascending; a station stays a party
to at most one call, and no call has one station for both parties (R135); and, while coverage and records agree, no
CONNECTED call comes to be under hold (R145). -/
def Obligations.CallTableKeepsItsBounds : Prop :=
  ∀ s t : State, s.callsOk → step s = .next t →
    t.callsOk ∧ (s.callsApart → t.callsApart) ∧ (s.alarmOk → s.holdOk → t.holdOk)
end

