-- ==== Sys2Proof/Laws/Operands.lean ====
section
/-! SUPPORT. The operand forms read back what they were written from: a number as a parameter word, an index, a coded
source, a flag. -/

namespace Sys2Proof.Machine

@[simp] theorem word_toNat_of_lt (n : Nat) (h : n < 65536) : (word n).toNat = n := by
  simp [word, BitVec.toNat_ofNat]; omega

@[simp] theorem word_toNat_fin {n : Nat} (i : Fin n) (h : n ≤ 65536) : (word i.val).toNat = i.val :=
  word_toNat_of_lt _ (by omega)

theorem index_of_lt {n x : Nat} (h : x < n) : index n x = some ⟨x, h⟩ := by simp [index, h]

theorem index_of_ge {n x : Nat} (h : n ≤ x) : index n x = none := by
  simp [index]; omega

theorem wordIndex_word {n : Nat} (i : Fin n) (h : n ≤ 65536) : wordIndex n (word i.val) = some i := by
  simp [wordIndex, word_toNat_fin i h, index]

theorem wordIndex_none {n : Nat} {w : Word16} (h : n ≤ w.toNat) : wordIndex n w = none := by
  simp [wordIndex, index]; omega

theorem codedIndex_word {base n : Nat} (i : Fin n) (h : base + n ≤ 65536) :
    codedIndex base n (word (base + i.val)) = some i := by
  have : (word (base + i.val)).toNat = base + i.val := word_toNat_of_lt _ (by omega)
  simp [codedIndex, this, index]

theorem codedIndex_below {base n : Nat} {w : Word16} (h : w.toNat < base) : codedIndex base n w = none := by
  simp [codedIndex]; omega

theorem codedIndex_above {base n : Nat} {w : Word16} (h : base + n ≤ w.toNat) : codedIndex base n w = none := by
  simp [codedIndex, index]; omega

theorem optionalIndex_word {n : Nat} (t : Option (Fin n)) (h : n ≤ 255) :
    optionalIndex n 255 (optionWord t) = some t := by
  cases t with
  | none => simp [optionalIndex, optionWord]
  | some x =>
    have hx : (word x.val).toNat = x.val := word_toNat_of_lt _ (by omega)
    have : ¬ x.val = 255 := by omega
    simp [optionalIndex, optionWord, hx, this, wordIndex_word x (by omega)]

theorem flagWord_word (b : Bool) : flagWord (word b.toNat) = some b := by
  cases b <;> rfl

theorem byteId_word (id : BitVec 8) (h : id ≠ 0) : byteId (word id.toNat) = some id := by
  have hx : (word id.toNat).toNat = id.toNat := word_toNat_of_lt _ (by omega)
  have h0 : 1 ≤ id.toNat := by
    rcases Nat.eq_zero_or_pos id.toNat with e | e
    · exact absurd (BitVec.eq_of_toNat_eq (by simpa using e)) h
    · exact e
  have h1 : id.toNat ≤ 255 := by omega
  simp only [byteId, hx, h0, h1, and_self, if_true, Option.some.injEq]
  apply BitVec.eq_of_toNat_eq
  rw [BitVec.toNat_setWidth, hx]
  exact Nat.mod_eq_of_lt (by omega)

theorem clampTo_mem (low high n : Nat) (h : low ≤ high) : low ≤ clampTo low high n ∧ clampTo low high n ≤ high := by
  simp only [clampTo]; omega

theorem routeSource_word (src : RouteSource) : routeSource (routeWord src) = some src := by
  cases src with
  | ringSlot t => simp [routeSource, routeWord, wordIndex_word t (by omega)]
  | localInput i =>
    have h : (word (256 + i.val)).toNat = 256 + i.val := word_toNat_of_lt _ (by omega)
    simp [routeSource, routeWord, wordIndex_none (n := 64) (w := word (256 + i.val)) (by omega),
      codedIndex_word (base := 256) i (by omega)]
  | feed f =>
    have h : (word (512 + f.val)).toNat = 512 + f.val := word_toNat_of_lt _ (by omega)
    simp [routeSource, routeWord, wordIndex_none (n := 64) (w := word (512 + f.val)) (by omega),
      codedIndex_above (base := 256) (n := 32) (w := word (512 + f.val)) (by omega),
      codedIndex_word (base := 512) f (by omega)]

theorem insertSource_word (src : InsertSource) (w : Word16) (h : insertWord src = some w) :
    insertSource w = some src := by
  cases src with
  | localInput i => cases h; simp [insertSource, codedIndex_word (base := 256) i (by omega)]
  | zone z =>
    cases h
    have h : (word (512 + z.val)).toNat = 512 + z.val := word_toNat_of_lt _ (by omega)
    simp [insertSource, codedIndex_above (base := 256) (n := 32) (w := word (512 + z.val)) (by omega),
      codedIndex_word (base := 512) z (by omega)]
  | player p =>
    cases h
    have h : (word (768 + p.val)).toNat = 768 + p.val := word_toNat_of_lt _ (by omega)
    simp [insertSource, codedIndex_above (base := 256) (n := 32) (w := word (768 + p.val)) (by omega),
      codedIndex_above (base := 512) (n := 24) (w := word (768 + p.val)) (by omega),
      codedIndex_word (base := 768) p (by omega)]
  | trunkCall id => cases h

theorem channelRole_word (r : ChannelRole) : channelRole (channelWord r) = some r := by
  cases r with
  | none => rfl
  | zone z => simp [channelRole, channelWord, codedIndex_word (base := 256) z (by omega)]
  | station p =>
    have h : (word (512 + p.val)).toNat = 512 + p.val := word_toNat_of_lt _ (by omega)
    simp [channelRole, channelWord, codedIndex_above (base := 256) (n := 24) (w := word (512 + p.val)) (by omega),
      codedIndex_word (base := 512) p (by omega)]

theorem inputRole_word (r : InputRole) : inputRole (inputWord r) = some r := by
  cases r with
  | line => rfl
  | sense z p =>
    have h : (word (256 + 2 * z.val + p.val)).toNat = 256 + 2 * z.val + p.val := word_toNat_of_lt _ (by omega)
    have h2 : (256 + 2 * z.val + p.val - 256) / 2 = z.val := by omega
    have h3 : (256 + 2 * z.val + p.val - 256) % 2 = p.val := by omega
    have h4 : ¬ 256 + 2 * z.val + p.val = 0 := by omega
    have h5 : 256 ≤ 256 + 2 * z.val + p.val := by omega
    simp only [inputRole, inputWord, h, h4, h5, if_true, if_false]
    rw [index_of_lt (n := 24) (x := (256 + 2 * z.val + p.val - 256) / 2) (by omega)]
    simp only [Option.map_some, Option.some.injEq, InputRole.sense.injEq, Fin.ext_iff]
    exact ⟨h2, h3⟩

theorem zoneMode_words (m : ZoneMode) (mode threshold : Word16) (h : modeWords mode threshold m) :
    zoneMode mode threshold = some m := by
  cases m with
  | normal => cases h; rfl
  | showLocked t =>
    obtain ⟨rfl, rfl, h1, h2⟩ := h
    have : (word t).toNat = t := word_toNat_of_lt _ (by omega)
    have h0 : (word 1).toNat = 1 := rfl
    simp [zoneMode, this, h0, h1, h2]
  | off => cases h; rfl

/-- A zone set is the one its two words spell. -/
theorem zoneSetOf_words (zs : ZoneSet) (low high : Word16) (h : zoneWords zs low high) :
    zoneSetOf low high = some zs := by
  obtain ⟨hh, hz⟩ := h
  simp only [zoneSetOf, hh, if_true, Option.some.injEq]
  apply BitVec.eq_of_getLsbD_eq
  intro i hi
  have := hz ⟨i, hi⟩
  rw [this]
  by_cases h16 : i < 16
  · rw [BitVec.getLsbD_append]; simp [h16]
  · have h8 : i - 16 < 8 := by omega
    rw [BitVec.getLsbD_append]; simp [h16, h8]

end Sys2Proof.Machine
end

