-- ==== Sys2Proof/Laws/State.lean ====
section
/-! SUPPORT. One lemma for each field and each update of the state: what an update of one block leaves in every field. -/

namespace Sys2Proof.Machine

/-! ### setRing -/

@[simp] theorem State.setRing_ring (s : State) (x : Ring) : (s.setRing x).ring = x := rfl
@[simp] theorem State.setRing_ctl (s : State) (x : Ring) : (s.setRing x).ctl = s.ctl := rfl
@[simp] theorem State.setRing_ports (s : State) (x : Ring) : (s.setRing x).ports = s.ports := rfl
@[simp] theorem State.setRing_mix (s : State) (x : Ring) : (s.setRing x).mix = s.mix := rfl
@[simp] theorem State.setRing_scene (s : State) (x : Ring) : (s.setRing x).scene = s.scene := rfl
@[simp] theorem State.setRing_feeds (s : State) (x : Ring) : (s.setRing x).feeds = s.feeds := rfl
@[simp] theorem State.setRing_clips (s : State) (x : Ring) : (s.setRing x).clips = s.clips := rfl
@[simp] theorem State.setRing_pages (s : State) (x : Ring) : (s.setRing x).pages = s.pages := rfl
@[simp] theorem State.setRing_icom (s : State) (x : Ring) : (s.setRing x).icom = s.icom := rfl
@[simp] theorem State.setRing_alarm (s : State) (x : Ring) : (s.setRing x).alarm = s.alarm := rfl
@[simp] theorem State.setRing_lines (s : State) (x : Ring) : (s.setRing x).lines = s.lines := rfl
@[simp] theorem State.setRing_trackers (s : State) (x : Ring) : (s.setRing x).trackers = s.trackers := rfl
@[simp] theorem State.setRing_recent (s : State) (x : Ring) : (s.setRing x).recent = s.recent := rfl
@[simp] theorem State.setRing_older (s : State) (x : Ring) : (s.setRing x).older = s.older := rfl
@[simp] theorem State.setRing_pending (s : State) (x : Ring) : (s.setRing x).pending = s.pending := rfl

/-! ### setCtl -/

@[simp] theorem State.setCtl_ring (s : State) (x : Control) : (s.setCtl x).ring = s.ring := rfl
@[simp] theorem State.setCtl_ctl (s : State) (x : Control) : (s.setCtl x).ctl = x := rfl
@[simp] theorem State.setCtl_ports (s : State) (x : Control) : (s.setCtl x).ports = s.ports := rfl
@[simp] theorem State.setCtl_mix (s : State) (x : Control) : (s.setCtl x).mix = s.mix := rfl
@[simp] theorem State.setCtl_scene (s : State) (x : Control) : (s.setCtl x).scene = s.scene := rfl
@[simp] theorem State.setCtl_feeds (s : State) (x : Control) : (s.setCtl x).feeds = s.feeds := rfl
@[simp] theorem State.setCtl_clips (s : State) (x : Control) : (s.setCtl x).clips = s.clips := rfl
@[simp] theorem State.setCtl_pages (s : State) (x : Control) : (s.setCtl x).pages = s.pages := rfl
@[simp] theorem State.setCtl_icom (s : State) (x : Control) : (s.setCtl x).icom = s.icom := rfl
@[simp] theorem State.setCtl_alarm (s : State) (x : Control) : (s.setCtl x).alarm = s.alarm := rfl
@[simp] theorem State.setCtl_lines (s : State) (x : Control) : (s.setCtl x).lines = s.lines := rfl
@[simp] theorem State.setCtl_trackers (s : State) (x : Control) : (s.setCtl x).trackers = s.trackers := rfl
@[simp] theorem State.setCtl_recent (s : State) (x : Control) : (s.setCtl x).recent = s.recent := rfl
@[simp] theorem State.setCtl_older (s : State) (x : Control) : (s.setCtl x).older = s.older := rfl
@[simp] theorem State.setCtl_pending (s : State) (x : Control) : (s.setCtl x).pending = s.pending := rfl

/-! ### setPorts -/

@[simp] theorem State.setPorts_ring (s : State) (x : Ports) : (s.setPorts x).ring = s.ring := rfl
@[simp] theorem State.setPorts_ctl (s : State) (x : Ports) : (s.setPorts x).ctl = s.ctl := rfl
@[simp] theorem State.setPorts_ports (s : State) (x : Ports) : (s.setPorts x).ports = x := rfl
@[simp] theorem State.setPorts_mix (s : State) (x : Ports) : (s.setPorts x).mix = s.mix := rfl
@[simp] theorem State.setPorts_scene (s : State) (x : Ports) : (s.setPorts x).scene = s.scene := rfl
@[simp] theorem State.setPorts_feeds (s : State) (x : Ports) : (s.setPorts x).feeds = s.feeds := rfl
@[simp] theorem State.setPorts_clips (s : State) (x : Ports) : (s.setPorts x).clips = s.clips := rfl
@[simp] theorem State.setPorts_pages (s : State) (x : Ports) : (s.setPorts x).pages = s.pages := rfl
@[simp] theorem State.setPorts_icom (s : State) (x : Ports) : (s.setPorts x).icom = s.icom := rfl
@[simp] theorem State.setPorts_alarm (s : State) (x : Ports) : (s.setPorts x).alarm = s.alarm := rfl
@[simp] theorem State.setPorts_lines (s : State) (x : Ports) : (s.setPorts x).lines = s.lines := rfl
@[simp] theorem State.setPorts_trackers (s : State) (x : Ports) : (s.setPorts x).trackers = s.trackers := rfl
@[simp] theorem State.setPorts_recent (s : State) (x : Ports) : (s.setPorts x).recent = s.recent := rfl
@[simp] theorem State.setPorts_older (s : State) (x : Ports) : (s.setPorts x).older = s.older := rfl
@[simp] theorem State.setPorts_pending (s : State) (x : Ports) : (s.setPorts x).pending = s.pending := rfl

/-! ### setMix -/

@[simp] theorem State.setMix_ring (s : State) (x : Mix) : (s.setMix x).ring = s.ring := rfl
@[simp] theorem State.setMix_ctl (s : State) (x : Mix) : (s.setMix x).ctl = s.ctl := rfl
@[simp] theorem State.setMix_ports (s : State) (x : Mix) : (s.setMix x).ports = s.ports := rfl
@[simp] theorem State.setMix_mix (s : State) (x : Mix) : (s.setMix x).mix = x := rfl
@[simp] theorem State.setMix_scene (s : State) (x : Mix) : (s.setMix x).scene = s.scene := rfl
@[simp] theorem State.setMix_feeds (s : State) (x : Mix) : (s.setMix x).feeds = s.feeds := rfl
@[simp] theorem State.setMix_clips (s : State) (x : Mix) : (s.setMix x).clips = s.clips := rfl
@[simp] theorem State.setMix_pages (s : State) (x : Mix) : (s.setMix x).pages = s.pages := rfl
@[simp] theorem State.setMix_icom (s : State) (x : Mix) : (s.setMix x).icom = s.icom := rfl
@[simp] theorem State.setMix_alarm (s : State) (x : Mix) : (s.setMix x).alarm = s.alarm := rfl
@[simp] theorem State.setMix_lines (s : State) (x : Mix) : (s.setMix x).lines = s.lines := rfl
@[simp] theorem State.setMix_trackers (s : State) (x : Mix) : (s.setMix x).trackers = s.trackers := rfl
@[simp] theorem State.setMix_recent (s : State) (x : Mix) : (s.setMix x).recent = s.recent := rfl
@[simp] theorem State.setMix_older (s : State) (x : Mix) : (s.setMix x).older = s.older := rfl
@[simp] theorem State.setMix_pending (s : State) (x : Mix) : (s.setMix x).pending = s.pending := rfl

/-! ### setScene -/

@[simp] theorem State.setScene_ring (s : State) (x : Scene) : (s.setScene x).ring = s.ring := rfl
@[simp] theorem State.setScene_ctl (s : State) (x : Scene) : (s.setScene x).ctl = s.ctl := rfl
@[simp] theorem State.setScene_ports (s : State) (x : Scene) : (s.setScene x).ports = s.ports := rfl
@[simp] theorem State.setScene_mix (s : State) (x : Scene) : (s.setScene x).mix = s.mix := rfl
@[simp] theorem State.setScene_scene (s : State) (x : Scene) : (s.setScene x).scene = x := rfl
@[simp] theorem State.setScene_feeds (s : State) (x : Scene) : (s.setScene x).feeds = s.feeds := rfl
@[simp] theorem State.setScene_clips (s : State) (x : Scene) : (s.setScene x).clips = s.clips := rfl
@[simp] theorem State.setScene_pages (s : State) (x : Scene) : (s.setScene x).pages = s.pages := rfl
@[simp] theorem State.setScene_icom (s : State) (x : Scene) : (s.setScene x).icom = s.icom := rfl
@[simp] theorem State.setScene_alarm (s : State) (x : Scene) : (s.setScene x).alarm = s.alarm := rfl
@[simp] theorem State.setScene_lines (s : State) (x : Scene) : (s.setScene x).lines = s.lines := rfl
@[simp] theorem State.setScene_trackers (s : State) (x : Scene) : (s.setScene x).trackers = s.trackers := rfl
@[simp] theorem State.setScene_recent (s : State) (x : Scene) : (s.setScene x).recent = s.recent := rfl
@[simp] theorem State.setScene_older (s : State) (x : Scene) : (s.setScene x).older = s.older := rfl
@[simp] theorem State.setScene_pending (s : State) (x : Scene) : (s.setScene x).pending = s.pending := rfl

/-! ### setFeeds -/

@[simp] theorem State.setFeeds_ring (s : State) (x : Vector Feed 4) : (s.setFeeds x).ring = s.ring := rfl
@[simp] theorem State.setFeeds_ctl (s : State) (x : Vector Feed 4) : (s.setFeeds x).ctl = s.ctl := rfl
@[simp] theorem State.setFeeds_ports (s : State) (x : Vector Feed 4) : (s.setFeeds x).ports = s.ports := rfl
@[simp] theorem State.setFeeds_mix (s : State) (x : Vector Feed 4) : (s.setFeeds x).mix = s.mix := rfl
@[simp] theorem State.setFeeds_scene (s : State) (x : Vector Feed 4) : (s.setFeeds x).scene = s.scene := rfl
@[simp] theorem State.setFeeds_feeds (s : State) (x : Vector Feed 4) : (s.setFeeds x).feeds = x := rfl
@[simp] theorem State.setFeeds_clips (s : State) (x : Vector Feed 4) : (s.setFeeds x).clips = s.clips := rfl
@[simp] theorem State.setFeeds_pages (s : State) (x : Vector Feed 4) : (s.setFeeds x).pages = s.pages := rfl
@[simp] theorem State.setFeeds_icom (s : State) (x : Vector Feed 4) : (s.setFeeds x).icom = s.icom := rfl
@[simp] theorem State.setFeeds_alarm (s : State) (x : Vector Feed 4) : (s.setFeeds x).alarm = s.alarm := rfl
@[simp] theorem State.setFeeds_lines (s : State) (x : Vector Feed 4) : (s.setFeeds x).lines = s.lines := rfl
@[simp] theorem State.setFeeds_trackers (s : State) (x : Vector Feed 4) : (s.setFeeds x).trackers = s.trackers := rfl
@[simp] theorem State.setFeeds_recent (s : State) (x : Vector Feed 4) : (s.setFeeds x).recent = s.recent := rfl
@[simp] theorem State.setFeeds_older (s : State) (x : Vector Feed 4) : (s.setFeeds x).older = s.older := rfl
@[simp] theorem State.setFeeds_pending (s : State) (x : Vector Feed 4) : (s.setFeeds x).pending = s.pending := rfl

/-! ### setClips -/

@[simp] theorem State.setClips_ring (s : State) (x : Clips) : (s.setClips x).ring = s.ring := rfl
@[simp] theorem State.setClips_ctl (s : State) (x : Clips) : (s.setClips x).ctl = s.ctl := rfl
@[simp] theorem State.setClips_ports (s : State) (x : Clips) : (s.setClips x).ports = s.ports := rfl
@[simp] theorem State.setClips_mix (s : State) (x : Clips) : (s.setClips x).mix = s.mix := rfl
@[simp] theorem State.setClips_scene (s : State) (x : Clips) : (s.setClips x).scene = s.scene := rfl
@[simp] theorem State.setClips_feeds (s : State) (x : Clips) : (s.setClips x).feeds = s.feeds := rfl
@[simp] theorem State.setClips_clips (s : State) (x : Clips) : (s.setClips x).clips = x := rfl
@[simp] theorem State.setClips_pages (s : State) (x : Clips) : (s.setClips x).pages = s.pages := rfl
@[simp] theorem State.setClips_icom (s : State) (x : Clips) : (s.setClips x).icom = s.icom := rfl
@[simp] theorem State.setClips_alarm (s : State) (x : Clips) : (s.setClips x).alarm = s.alarm := rfl
@[simp] theorem State.setClips_lines (s : State) (x : Clips) : (s.setClips x).lines = s.lines := rfl
@[simp] theorem State.setClips_trackers (s : State) (x : Clips) : (s.setClips x).trackers = s.trackers := rfl
@[simp] theorem State.setClips_recent (s : State) (x : Clips) : (s.setClips x).recent = s.recent := rfl
@[simp] theorem State.setClips_older (s : State) (x : Clips) : (s.setClips x).older = s.older := rfl
@[simp] theorem State.setClips_pending (s : State) (x : Clips) : (s.setClips x).pending = s.pending := rfl

/-! ### setPages -/

@[simp] theorem State.setPages_ring (s : State) (x : Pages) : (s.setPages x).ring = s.ring := rfl
@[simp] theorem State.setPages_ctl (s : State) (x : Pages) : (s.setPages x).ctl = s.ctl := rfl
@[simp] theorem State.setPages_ports (s : State) (x : Pages) : (s.setPages x).ports = s.ports := rfl
@[simp] theorem State.setPages_mix (s : State) (x : Pages) : (s.setPages x).mix = s.mix := rfl
@[simp] theorem State.setPages_scene (s : State) (x : Pages) : (s.setPages x).scene = s.scene := rfl
@[simp] theorem State.setPages_feeds (s : State) (x : Pages) : (s.setPages x).feeds = s.feeds := rfl
@[simp] theorem State.setPages_clips (s : State) (x : Pages) : (s.setPages x).clips = s.clips := rfl
@[simp] theorem State.setPages_pages (s : State) (x : Pages) : (s.setPages x).pages = x := rfl
@[simp] theorem State.setPages_icom (s : State) (x : Pages) : (s.setPages x).icom = s.icom := rfl
@[simp] theorem State.setPages_alarm (s : State) (x : Pages) : (s.setPages x).alarm = s.alarm := rfl
@[simp] theorem State.setPages_lines (s : State) (x : Pages) : (s.setPages x).lines = s.lines := rfl
@[simp] theorem State.setPages_trackers (s : State) (x : Pages) : (s.setPages x).trackers = s.trackers := rfl
@[simp] theorem State.setPages_recent (s : State) (x : Pages) : (s.setPages x).recent = s.recent := rfl
@[simp] theorem State.setPages_older (s : State) (x : Pages) : (s.setPages x).older = s.older := rfl
@[simp] theorem State.setPages_pending (s : State) (x : Pages) : (s.setPages x).pending = s.pending := rfl

/-! ### setIcom -/

@[simp] theorem State.setIcom_ring (s : State) (x : Intercom) : (s.setIcom x).ring = s.ring := rfl
@[simp] theorem State.setIcom_ctl (s : State) (x : Intercom) : (s.setIcom x).ctl = s.ctl := rfl
@[simp] theorem State.setIcom_ports (s : State) (x : Intercom) : (s.setIcom x).ports = s.ports := rfl
@[simp] theorem State.setIcom_mix (s : State) (x : Intercom) : (s.setIcom x).mix = s.mix := rfl
@[simp] theorem State.setIcom_scene (s : State) (x : Intercom) : (s.setIcom x).scene = s.scene := rfl
@[simp] theorem State.setIcom_feeds (s : State) (x : Intercom) : (s.setIcom x).feeds = s.feeds := rfl
@[simp] theorem State.setIcom_clips (s : State) (x : Intercom) : (s.setIcom x).clips = s.clips := rfl
@[simp] theorem State.setIcom_pages (s : State) (x : Intercom) : (s.setIcom x).pages = s.pages := rfl
@[simp] theorem State.setIcom_icom (s : State) (x : Intercom) : (s.setIcom x).icom = x := rfl
@[simp] theorem State.setIcom_alarm (s : State) (x : Intercom) : (s.setIcom x).alarm = s.alarm := rfl
@[simp] theorem State.setIcom_lines (s : State) (x : Intercom) : (s.setIcom x).lines = s.lines := rfl
@[simp] theorem State.setIcom_trackers (s : State) (x : Intercom) : (s.setIcom x).trackers = s.trackers := rfl
@[simp] theorem State.setIcom_recent (s : State) (x : Intercom) : (s.setIcom x).recent = s.recent := rfl
@[simp] theorem State.setIcom_older (s : State) (x : Intercom) : (s.setIcom x).older = s.older := rfl
@[simp] theorem State.setIcom_pending (s : State) (x : Intercom) : (s.setIcom x).pending = s.pending := rfl

/-! ### setAlarm -/

@[simp] theorem State.setAlarm_ring (s : State) (x : Alarm) : (s.setAlarm x).ring = s.ring := rfl
@[simp] theorem State.setAlarm_ctl (s : State) (x : Alarm) : (s.setAlarm x).ctl = s.ctl := rfl
@[simp] theorem State.setAlarm_ports (s : State) (x : Alarm) : (s.setAlarm x).ports = s.ports := rfl
@[simp] theorem State.setAlarm_mix (s : State) (x : Alarm) : (s.setAlarm x).mix = s.mix := rfl
@[simp] theorem State.setAlarm_scene (s : State) (x : Alarm) : (s.setAlarm x).scene = s.scene := rfl
@[simp] theorem State.setAlarm_feeds (s : State) (x : Alarm) : (s.setAlarm x).feeds = s.feeds := rfl
@[simp] theorem State.setAlarm_clips (s : State) (x : Alarm) : (s.setAlarm x).clips = s.clips := rfl
@[simp] theorem State.setAlarm_pages (s : State) (x : Alarm) : (s.setAlarm x).pages = s.pages := rfl
@[simp] theorem State.setAlarm_icom (s : State) (x : Alarm) : (s.setAlarm x).icom = s.icom := rfl
@[simp] theorem State.setAlarm_alarm (s : State) (x : Alarm) : (s.setAlarm x).alarm = x := rfl
@[simp] theorem State.setAlarm_lines (s : State) (x : Alarm) : (s.setAlarm x).lines = s.lines := rfl
@[simp] theorem State.setAlarm_trackers (s : State) (x : Alarm) : (s.setAlarm x).trackers = s.trackers := rfl
@[simp] theorem State.setAlarm_recent (s : State) (x : Alarm) : (s.setAlarm x).recent = s.recent := rfl
@[simp] theorem State.setAlarm_older (s : State) (x : Alarm) : (s.setAlarm x).older = s.older := rfl
@[simp] theorem State.setAlarm_pending (s : State) (x : Alarm) : (s.setAlarm x).pending = s.pending := rfl

/-! ### setLines -/

@[simp] theorem State.setLines_ring (s : State) (x : Lines) : (s.setLines x).ring = s.ring := rfl
@[simp] theorem State.setLines_ctl (s : State) (x : Lines) : (s.setLines x).ctl = s.ctl := rfl
@[simp] theorem State.setLines_ports (s : State) (x : Lines) : (s.setLines x).ports = s.ports := rfl
@[simp] theorem State.setLines_mix (s : State) (x : Lines) : (s.setLines x).mix = s.mix := rfl
@[simp] theorem State.setLines_scene (s : State) (x : Lines) : (s.setLines x).scene = s.scene := rfl
@[simp] theorem State.setLines_feeds (s : State) (x : Lines) : (s.setLines x).feeds = s.feeds := rfl
@[simp] theorem State.setLines_clips (s : State) (x : Lines) : (s.setLines x).clips = s.clips := rfl
@[simp] theorem State.setLines_pages (s : State) (x : Lines) : (s.setLines x).pages = s.pages := rfl
@[simp] theorem State.setLines_icom (s : State) (x : Lines) : (s.setLines x).icom = s.icom := rfl
@[simp] theorem State.setLines_alarm (s : State) (x : Lines) : (s.setLines x).alarm = s.alarm := rfl
@[simp] theorem State.setLines_lines (s : State) (x : Lines) : (s.setLines x).lines = x := rfl
@[simp] theorem State.setLines_trackers (s : State) (x : Lines) : (s.setLines x).trackers = s.trackers := rfl
@[simp] theorem State.setLines_recent (s : State) (x : Lines) : (s.setLines x).recent = s.recent := rfl
@[simp] theorem State.setLines_older (s : State) (x : Lines) : (s.setLines x).older = s.older := rfl
@[simp] theorem State.setLines_pending (s : State) (x : Lines) : (s.setLines x).pending = s.pending := rfl

/-! ### setTrackers -/

@[simp] theorem State.setTrackers_ring (s : State) (x : Vector ZoneTracker 24) : (s.setTrackers x).ring = s.ring := rfl
@[simp] theorem State.setTrackers_ctl (s : State) (x : Vector ZoneTracker 24) : (s.setTrackers x).ctl = s.ctl := rfl
@[simp] theorem State.setTrackers_ports (s : State) (x : Vector ZoneTracker 24) : (s.setTrackers x).ports = s.ports := rfl
@[simp] theorem State.setTrackers_mix (s : State) (x : Vector ZoneTracker 24) : (s.setTrackers x).mix = s.mix := rfl
@[simp] theorem State.setTrackers_scene (s : State) (x : Vector ZoneTracker 24) : (s.setTrackers x).scene = s.scene := rfl
@[simp] theorem State.setTrackers_feeds (s : State) (x : Vector ZoneTracker 24) : (s.setTrackers x).feeds = s.feeds := rfl
@[simp] theorem State.setTrackers_clips (s : State) (x : Vector ZoneTracker 24) : (s.setTrackers x).clips = s.clips := rfl
@[simp] theorem State.setTrackers_pages (s : State) (x : Vector ZoneTracker 24) : (s.setTrackers x).pages = s.pages := rfl
@[simp] theorem State.setTrackers_icom (s : State) (x : Vector ZoneTracker 24) : (s.setTrackers x).icom = s.icom := rfl
@[simp] theorem State.setTrackers_alarm (s : State) (x : Vector ZoneTracker 24) : (s.setTrackers x).alarm = s.alarm := rfl
@[simp] theorem State.setTrackers_lines (s : State) (x : Vector ZoneTracker 24) : (s.setTrackers x).lines = s.lines := rfl
@[simp] theorem State.setTrackers_trackers (s : State) (x : Vector ZoneTracker 24) : (s.setTrackers x).trackers = x := rfl
@[simp] theorem State.setTrackers_recent (s : State) (x : Vector ZoneTracker 24) : (s.setTrackers x).recent = s.recent := rfl
@[simp] theorem State.setTrackers_older (s : State) (x : Vector ZoneTracker 24) : (s.setTrackers x).older = s.older := rfl
@[simp] theorem State.setTrackers_pending (s : State) (x : Vector ZoneTracker 24) : (s.setTrackers x).pending = s.pending := rfl

/-! ### setSamples -/

@[simp] theorem State.setSamples_ring (s : State) (k k2 : Computation) :
    (s.setSamples k k2).ring = s.ring := rfl
@[simp] theorem State.setSamples_ctl (s : State) (k k2 : Computation) :
    (s.setSamples k k2).ctl = s.ctl := rfl
@[simp] theorem State.setSamples_ports (s : State) (k k2 : Computation) :
    (s.setSamples k k2).ports = s.ports := rfl
@[simp] theorem State.setSamples_mix (s : State) (k k2 : Computation) :
    (s.setSamples k k2).mix = s.mix := rfl
@[simp] theorem State.setSamples_scene (s : State) (k k2 : Computation) :
    (s.setSamples k k2).scene = s.scene := rfl
@[simp] theorem State.setSamples_feeds (s : State) (k k2 : Computation) :
    (s.setSamples k k2).feeds = s.feeds := rfl
@[simp] theorem State.setSamples_clips (s : State) (k k2 : Computation) :
    (s.setSamples k k2).clips = s.clips := rfl
@[simp] theorem State.setSamples_pages (s : State) (k k2 : Computation) :
    (s.setSamples k k2).pages = s.pages := rfl
@[simp] theorem State.setSamples_icom (s : State) (k k2 : Computation) :
    (s.setSamples k k2).icom = s.icom := rfl
@[simp] theorem State.setSamples_alarm (s : State) (k k2 : Computation) :
    (s.setSamples k k2).alarm = s.alarm := rfl
@[simp] theorem State.setSamples_lines (s : State) (k k2 : Computation) :
    (s.setSamples k k2).lines = s.lines := rfl
@[simp] theorem State.setSamples_trackers (s : State) (k k2 : Computation) :
    (s.setSamples k k2).trackers = s.trackers := rfl
@[simp] theorem State.setSamples_recent (s : State) (k k2 : Computation) :
    (s.setSamples k k2).recent = k := rfl
@[simp] theorem State.setSamples_older (s : State) (k k2 : Computation) :
    (s.setSamples k k2).older = k2 := rfl
@[simp] theorem State.setSamples_pending (s : State) (k k2 : Computation) :
    (s.setSamples k k2).pending = s.pending := rfl

/-! ### putControl -/

@[simp] theorem State.putControl_ctl (s : State) (w : BitVec 32) : (s.putControl w).ctl = s.ctl := rfl
@[simp] theorem State.putControl_ports (s : State) (w : BitVec 32) : (s.putControl w).ports = s.ports := rfl
@[simp] theorem State.putControl_mix (s : State) (w : BitVec 32) : (s.putControl w).mix = s.mix := rfl
@[simp] theorem State.putControl_scene (s : State) (w : BitVec 32) : (s.putControl w).scene = s.scene := rfl
@[simp] theorem State.putControl_feeds (s : State) (w : BitVec 32) : (s.putControl w).feeds = s.feeds := rfl
@[simp] theorem State.putControl_clips (s : State) (w : BitVec 32) : (s.putControl w).clips = s.clips := rfl
@[simp] theorem State.putControl_pages (s : State) (w : BitVec 32) : (s.putControl w).pages = s.pages := rfl
@[simp] theorem State.putControl_icom (s : State) (w : BitVec 32) : (s.putControl w).icom = s.icom := rfl
@[simp] theorem State.putControl_alarm (s : State) (w : BitVec 32) : (s.putControl w).alarm = s.alarm := rfl
@[simp] theorem State.putControl_lines (s : State) (w : BitVec 32) : (s.putControl w).lines = s.lines := rfl
@[simp] theorem State.putControl_trackers (s : State) (w : BitVec 32) : (s.putControl w).trackers = s.trackers := rfl
@[simp] theorem State.putControl_recent (s : State) (w : BitVec 32) : (s.putControl w).recent = s.recent := rfl
@[simp] theorem State.putControl_older (s : State) (w : BitVec 32) : (s.putControl w).older = s.older := rfl
@[simp] theorem State.putControl_pending (s : State) (w : BitVec 32) : (s.putControl w).pending = s.pending := rfl

/-! ### post -/

@[simp] theorem State.post_ring (s : State) (kind : EventKind) (n : Word16) (d : BitVec 4) :
    (s.post kind n d).ring = s.ring := rfl
@[simp] theorem State.post_ports (s : State) (kind : EventKind) (n : Word16) (d : BitVec 4) :
    (s.post kind n d).ports = s.ports := rfl
@[simp] theorem State.post_mix (s : State) (kind : EventKind) (n : Word16) (d : BitVec 4) :
    (s.post kind n d).mix = s.mix := rfl
@[simp] theorem State.post_scene (s : State) (kind : EventKind) (n : Word16) (d : BitVec 4) :
    (s.post kind n d).scene = s.scene := rfl
@[simp] theorem State.post_feeds (s : State) (kind : EventKind) (n : Word16) (d : BitVec 4) :
    (s.post kind n d).feeds = s.feeds := rfl
@[simp] theorem State.post_clips (s : State) (kind : EventKind) (n : Word16) (d : BitVec 4) :
    (s.post kind n d).clips = s.clips := rfl
@[simp] theorem State.post_pages (s : State) (kind : EventKind) (n : Word16) (d : BitVec 4) :
    (s.post kind n d).pages = s.pages := rfl
@[simp] theorem State.post_icom (s : State) (kind : EventKind) (n : Word16) (d : BitVec 4) :
    (s.post kind n d).icom = s.icom := rfl
@[simp] theorem State.post_alarm (s : State) (kind : EventKind) (n : Word16) (d : BitVec 4) :
    (s.post kind n d).alarm = s.alarm := rfl
@[simp] theorem State.post_lines (s : State) (kind : EventKind) (n : Word16) (d : BitVec 4) :
    (s.post kind n d).lines = s.lines := rfl
@[simp] theorem State.post_trackers (s : State) (kind : EventKind) (n : Word16) (d : BitVec 4) :
    (s.post kind n d).trackers = s.trackers := rfl
@[simp] theorem State.post_recent (s : State) (kind : EventKind) (n : Word16) (d : BitVec 4) :
    (s.post kind n d).recent = s.recent := rfl
@[simp] theorem State.post_older (s : State) (kind : EventKind) (n : Word16) (d : BitVec 4) :
    (s.post kind n d).older = s.older := rfl
@[simp] theorem State.post_pending (s : State) (kind : EventKind) (n : Word16) (d : BitVec 4) :
    (s.post kind n d).pending = s.pending := rfl

/-! ### clearBuffer -/

@[simp] theorem State.clearBuffer_ring (s : State) : s.clearBuffer.ring = s.ring := rfl
@[simp] theorem State.clearBuffer_ports (s : State) : s.clearBuffer.ports = s.ports := rfl
@[simp] theorem State.clearBuffer_mix (s : State) : s.clearBuffer.mix = s.mix := rfl
@[simp] theorem State.clearBuffer_scene (s : State) : s.clearBuffer.scene = s.scene := rfl
@[simp] theorem State.clearBuffer_feeds (s : State) : s.clearBuffer.feeds = s.feeds := rfl
@[simp] theorem State.clearBuffer_clips (s : State) : s.clearBuffer.clips = s.clips := rfl
@[simp] theorem State.clearBuffer_pages (s : State) : s.clearBuffer.pages = s.pages := rfl
@[simp] theorem State.clearBuffer_icom (s : State) : s.clearBuffer.icom = s.icom := rfl
@[simp] theorem State.clearBuffer_alarm (s : State) : s.clearBuffer.alarm = s.alarm := rfl
@[simp] theorem State.clearBuffer_lines (s : State) : s.clearBuffer.lines = s.lines := rfl
@[simp] theorem State.clearBuffer_trackers (s : State) : s.clearBuffer.trackers = s.trackers := rfl
@[simp] theorem State.clearBuffer_recent (s : State) : s.clearBuffer.recent = s.recent := rfl
@[simp] theorem State.clearBuffer_older (s : State) : s.clearBuffer.older = s.older := rfl
@[simp] theorem State.clearBuffer_pending (s : State) : s.clearBuffer.pending = s.pending := rfl

/-! ### spoilBuffer -/

@[simp] theorem State.spoilBuffer_ring (s : State) : s.spoilBuffer.ring = s.ring := rfl
@[simp] theorem State.spoilBuffer_ports (s : State) : s.spoilBuffer.ports = s.ports := rfl
@[simp] theorem State.spoilBuffer_mix (s : State) : s.spoilBuffer.mix = s.mix := rfl
@[simp] theorem State.spoilBuffer_scene (s : State) : s.spoilBuffer.scene = s.scene := rfl
@[simp] theorem State.spoilBuffer_feeds (s : State) : s.spoilBuffer.feeds = s.feeds := rfl
@[simp] theorem State.spoilBuffer_clips (s : State) : s.spoilBuffer.clips = s.clips := rfl
@[simp] theorem State.spoilBuffer_pages (s : State) : s.spoilBuffer.pages = s.pages := rfl
@[simp] theorem State.spoilBuffer_icom (s : State) : s.spoilBuffer.icom = s.icom := rfl
@[simp] theorem State.spoilBuffer_alarm (s : State) : s.spoilBuffer.alarm = s.alarm := rfl
@[simp] theorem State.spoilBuffer_lines (s : State) : s.spoilBuffer.lines = s.lines := rfl
@[simp] theorem State.spoilBuffer_trackers (s : State) : s.spoilBuffer.trackers = s.trackers := rfl
@[simp] theorem State.spoilBuffer_recent (s : State) : s.spoilBuffer.recent = s.recent := rfl
@[simp] theorem State.spoilBuffer_older (s : State) : s.spoilBuffer.older = s.older := rfl
@[simp] theorem State.spoilBuffer_pending (s : State) : s.spoilBuffer.pending = s.pending := rfl

end Sys2Proof.Machine
end

