-- ==== Sys2Proof/Laws/Requests.lean ====
section
/-! SUPPORT. What becomes of a CLOSE word in each case of its address and of the pending reply, and what an answer and a
posted event leave. -/

namespace Sys2Proof.Machine

theorem State.heard_iff (s : State) : s.heard = true ↔ s.ring.rx = .locked := by simp [State.heard]

theorem State.own.heard {s : State} {a : NodeAddr} (h : s.own a) : s.heard = true := s.heard_iff.mpr h.1

/-! ### Answers -/

/-- An answer leaves its own state beside the idle word, the clear buffer and the pending reply. -/
theorem consume_eq (code : BitVec 8) (a : Answer) :
    State.consume code a = a.state.answered code a.status a.reply := rfl

@[simp] theorem consume_refuse (code : BitVec 8) (st : Status) (s : State) :
    State.consume code (.refuse st s) = s.answered code st [] := rfl

@[simp] theorem consume_ok (code : BitVec 8) (s : State) : State.consume code (.ok s) = s.answered code .ok [] := rfl

@[simp] theorem consume_report (code : BitVec 8) (s : State) (ws : List Word16) :
    State.consume code (.report s ws) = s.answered code .ok ws := rfl

/-! ### Events -/

/-- The posting operation is the one the statements speak of. -/
theorem post_eq (s : State) (kind : EventKind) (n d : Nat) :
    s.post kind (BitVec.ofNat 16 n) (BitVec.ofNat 4 d) = s.withEvent kind n d := by
  simp only [State.post, State.withEvent, State.setCtl, Control.post, eventStamp, word]

/-- A posted event joins the list, or the catch position of a full list. -/
theorem post_ctl (s : State) (kind : EventKind) (n : Word16) (d : BitVec 4) :
    (s.post kind n d).ctl =
      if s.ctl.events.length < 16 then
        { s.ctl with events := s.ctl.events ++
            [{ kind := kind, stamp := s.ring.cycleNumber.extractLsb' 9 7, subject := n, detail := d }] }
      else { s.ctl with
        catchRec := some { kind := kind, stamp := s.ring.cycleNumber.extractLsb' 9 7, subject := n, detail := d }
        overflow := true } := by
  simp only [State.post, State.setCtl, Control.post, eventStamp]

@[simp] theorem post_buffer (s : State) (kind : EventKind) (n : Word16) (d : BitVec 4) :
    (s.post kind n d).ctl.buffer = s.ctl.buffer := by rw [post_ctl]; split <;> rfl

@[simp] theorem post_reply (s : State) (kind : EventKind) (n : Word16) (d : BitVec 4) :
    (s.post kind n d).ctl.reply = s.ctl.reply := by rw [post_ctl]; split <;> rfl

@[simp] theorem post_settings (s : State) (kind : EventKind) (n : Word16) (d : BitVec 4) :
    (s.post kind n d).ctl.settings = s.ctl.settings := by rw [post_ctl]; split <;> rfl

@[simp] theorem post_incoming (s : State) (kind : EventKind) (n : Word16) (d : BitVec 4) :
    (s.post kind n d).ctl.incoming = s.ctl.incoming := by rw [post_ctl]; split <;> rfl

/-- The event list only grows at its end. -/
theorem post_events_prefix (s : State) (kind : EventKind) (n : Word16) (d : BitVec 4) :
    s.ctl.events <+: (s.post kind n d).ctl.events := by
  rw [post_ctl]; split
  · exact List.prefix_append _ _
  · exact List.prefix_rfl

/-! ### Which CLOSE does what -/

theorem closeWord_not_heard (u : State → State) (owner : List Word16 → State → Answer) (code : BitVec 8)
    (a : NodeAddr) (low : BitVec 8) (s : State) (h : s.heard = false) :
    closeWord u owner code a low s = s.passControl (controlWord .close a (code ++ low)) := by
  simp [closeWord, h]

theorem closeWord_foreign (u : State → State) (owner : List Word16 → State → Answer) (code : BitVec 8)
    (a : NodeAddr) (low : BitVec 8) (s : State) (h : s.heard = true) (h0 : a ≠ 0) (h1 : a ≠ s.ring.address) :
    closeWord u owner code a low s = s.forwardClose a code low := by
  rw [closeWord, if_pos h, if_neg h0, if_neg h1]

theorem closeWord_universal (u : State → State) (owner : List Word16 → State → Answer) (code : BitVec 8)
    (low : BitVec 8) (s : State) (h : s.heard = true) : closeWord u owner code 0 low s = u s := by
  simp [closeWord, h]

theorem closeWord_overlap (u : State → State) (owner : List Word16 → State → Answer) (code : BitVec 8)
    (a : NodeAddr) (low : BitVec 8) (s : State) (h : s.heard = true) (h0 : a ≠ 0) (h1 : a = s.ring.address)
    (r : Reply) (hr : s.ctl.reply = some r) : closeWord u owner code a low s = s.overlapClose a := by
  rw [closeWord, if_pos h, if_neg h0, if_pos h1, if_pos (by rw [hr]; rfl)]

theorem closeWord_own (u : State → State) (owner : List Word16 → State → Answer) (code : BitVec 8)
    (a : NodeAddr) (low : BitVec 8) (s : State) (h : s.own a) :
    closeWord u owner code a low s = State.consume code (examine owner s) := by
  obtain ⟨hl, h0, h1, hr⟩ := h
  rw [closeWord, if_pos (s.heard_iff.mpr hl), if_neg h0, if_pos h1, if_neg (by rw [hr]; simp)]

/-- A request with these words in an unmarked buffer executes its owner. -/
theorem closeWord_asked (u : State → State) (owner : List Word16 → State → Answer) (code : BitVec 8)
    (a : NodeAddr) (low : BitVec 8) (ws : List Word16) (s : State) (h : s.asked a ws) :
    closeWord u owner code a low s = State.consume code (owner ws s) := by
  rw [closeWord_own _ _ _ _ _ _ h.1]
  simp [examine, h.2]

theorem request_asked (owner : List Word16 → State → Answer) (code : BitVec 8) (a : NodeAddr) (low : BitVec 8)
    (ws : List Word16) (s : State) (h : s.asked a ws) :
    request code owner a low s = State.consume code (owner ws s) :=
  closeWord_asked _ _ _ _ _ _ _ h

end Sys2Proof.Machine
end

