-- ==== Sys2Proof/Laws/Tables.lean ====
section
/-! SUPPORT. What writing one entry of a table, and rewriting a whole table, leave at every index; the tables of
indices. -/

namespace Sys2Proof.Machine

theorem put_getElem {α : Type} {n : Nat} (v : Vector α n) (i : Fin n) (x : α) (k : Nat) (h : k < n) :
    (put v i x)[k] = if k = i.val then x else v[k] := by
  simp only [put, Vector.getElem_set, eq_comm]

@[simp] theorem put_getElem_self {α : Type} {n : Nat} (v : Vector α n) (i : Fin n) (x : α) :
    (put v i x)[i.val] = x := by
  simp [put_getElem]

@[simp] theorem mapTable_getElem {α β : Type} {n : Nat} (f : Fin n → α → β) (v : Vector α n) (k : Nat) (h : k < n) :
    (mapTable f v)[k] = f ⟨k, h⟩ v[k] := by
  simp [mapTable]

theorem put_get_self {α : Type} {n : Nat} (v : Vector α n) (i : Fin n) (x : α) : (put v i x)[i] = x := by
  simp

theorem put_get {α : Type} {n : Nat} (v : Vector α n) (i j : Fin n) (x : α) :
    (put v i x)[j] = if j = i then x else v[j] := by
  simp [put_getElem, Fin.ext_iff]

theorem put_get_ne {α : Type} {n : Nat} (v : Vector α n) (i j : Fin n) (x : α) (h : j ≠ i) :
    (put v i x)[j] = v[j] := by
  rw [put_get, if_neg h]

theorem mapTable_get {α β : Type} {n : Nat} (f : Fin n → α → β) (v : Vector α n) (i : Fin n) :
    (mapTable f v)[i] = f i v[i] := by
  simp

/-- Two tables with equal entries are equal. -/
theorem table_ext {α : Type} {n : Nat} (v w : Vector α n) (h : ∀ i : Fin n, v[i] = w[i]) : v = w := by
  apply Vector.ext
  intro i hi
  exact h ⟨i, hi⟩

@[simp] theorem put_put {α : Type} {n : Nat} (v : Vector α n) (i : Fin n) (x y : α) :
    put (put v i x) i y = put v i y := by
  simp [put]

/-- Writing an entry back changes nothing. -/
@[simp] theorem put_same {α : Type} {n : Nat} (v : Vector α n) (i : Fin n) : put v i v[i] = v := by
  apply table_ext; intro j
  rw [put_get]; split
  · rename_i h; rw [h]
  · rfl

@[simp] theorem mem_indices {n : Nat} (i : Fin n) : i ∈ indices n := by
  simp [indices]

theorem indices_nodup (n : Nat) : (indices n).Nodup := by
  simpa [indices] using List.nodup_ofFn.mpr Function.injective_id

end Sys2Proof.Machine
end

