-- ==== Sys2Proof/Laws/Calls.lean ====
section
/-! SUPPORT. What the intercom switch can change: cue timers, the end and the creation of a call, hold and resume. -/

namespace Sys2Proof.Machine

/-! ### Cue timers -/

/-- The cue timer of one port. -/
theorem setCue_eq (s : State) (p : Fin 32) (n : Nat) : s.setCue p n = s.withCue p n := rfl

/-- A table of stations with the cue timers of some ports at 0. -/
def cuesOff (table : Vector (Option Station) 32) (pick : Fin 32 → Bool) : Vector (Option Station) 32 :=
  mapTable (fun p (e : Option Station) => if pick p then e.map (fun e => { e with cueTimer := 0, cueDue := false }) else e)
    table

theorem cuesOff_none (table : Vector (Option Station) 32) : cuesOff table (fun _ => false) = table := by
  apply table_ext; intro i; rw [cuesOff, mapTable_get]; rfl

theorem cuesOff_put (table : Vector (Option Station) 32) (a : Fin 32) (pick : Fin 32 → Bool) :
    cuesOff (put table a ((table[a]).map (fun e => { e with cueTimer := 0, cueDue := false }))) pick =
      cuesOff table (fun p => p == a || pick p) := by
  apply table_ext; intro i
  rw [cuesOff, cuesOff, mapTable_get, mapTable_get, put_get]
  by_cases hi : i = a
  · subst hi
    cases hp : pick i <;> cases he : table[i] <;> simp
  · simp [hi]

/-- The cue timers of a list of ports, those a test on presence picks. -/
theorem foldl_setCue (pick : Vector Presence 32 → Fin 32 → Bool) (l : List (Fin 32)) (s : State) :
    l.foldl (fun s p => if pick s.icom.presence p then s.setCue p 0 else s) s =
      { s with icom := { s.icom with
        table := cuesOff s.icom.table (fun p => l.contains p && pick s.icom.presence p) } } := by
  induction l generalizing s with
  | nil => simp only [List.foldl_nil, List.contains_nil, Bool.false_and, cuesOff_none]
  | cons a rest ih =>
    rw [List.foldl_cons, ih]
    by_cases ha : pick s.icom.presence a = true
    · have h : cuesOff (s.withCue a 0).icom.table (fun p => rest.contains p && pick s.icom.presence p) =
          cuesOff s.icom.table (fun p => (a :: rest).contains p && pick s.icom.presence p) := by
        refine (cuesOff_put _ _ _).trans (congrArg _ (funext fun p => ?_))
        by_cases hp : p = a
        · subst hp; simp [ha]
        · simp [hp]
      simp only [ha, if_true, setCue_eq]
      rw [← h]; rfl
    · have h : (fun p => rest.contains p && pick s.icom.presence p) =
          fun p => (a :: rest).contains p && pick s.icom.presence p := by
        funext p
        by_cases hp : p = a
        · subst hp; simp [ha]
        · simp [hp]
      simp only [ha, if_false, Bool.false_eq_true, h]

/-! ### Ends -/

/-- A call that has a record ends as R141 states. -/
theorem endCall_eq (s : State) (c : Call) (cause : Nat) (h : s.callWith c.id = some c) :
    s.endCall c.id (BitVec.ofNat 4 cause) = s.callOver c cause := by
  simp only [State.endCall, h]
  have hw : c.id.setWidth 16 = BitVec.ofNat 16 c.id.toNat := by
    apply BitVec.eq_of_toNat_eq; simp
  rw [hw, post_eq, foldl_setCue (fun v p => (v[p]).present)]
  refine congrArg (fun t : State => t.withEvent .callEnded c.id.toNat cause) ?_
  have ht : cuesOff s.icom.table (fun p => c.stations.contains p && (s.icom.presence[p]).present) =
      mapTable (fun p (e : Option Station) =>
        if p ∈ c.stations ∧ (s.icom.presence[p]).present = true then
          e.map (fun e => { e with cueTimer := 0, cueDue := false })
        else e) s.icom.table := by
    simp only [cuesOff, Bool.and_eq_true, List.contains_iff_mem]
  rw [← ht]; rfl

/-- An id that no record holds ends nothing. -/
theorem endCall_none (s : State) (id : CallId) (cause : BitVec 4) (h : s.callWith id = none) :
    s.endCall id cause = s := by
  simp only [State.endCall, h]

/-- The record of a call's id, in a table with ascending ids. -/
theorem callWith_of_mem (s : State) (c : Call) (h : s.icom.calls.Pairwise (fun a b => a.id.toNat < b.id.toNat))
    (hc : c ∈ s.icom.calls) : s.callWith c.id = some c := by
  simp only [State.callWith]
  generalize s.icom.calls = l at h hc
  induction l with
  | nil => cases hc
  | cons x rest ih =>
    have hp := List.pairwise_cons.mp h
    rcases List.mem_cons.mp hc with rfl | hm
    · simp
    · have hlt := hp.1 c hm
      have : ¬ (x.id == c.id) = true := by
        intro e
        rw [beq_iff_eq] at e
        rw [e] at hlt; omega
      rw [List.find?_cons_of_neg (p := fun y : Call => y.id == c.id) this]
      exact ih hp.2 hm

/-- The calls that a list of ended calls leaves. -/
theorem foldl_callOver_calls (l : List Call) (cause : Nat) (s : State) :
    (l.foldl (fun s c => s.callOver c cause) s).icom.calls =
      s.icom.calls.filter (fun x => !l.any (fun c => c.id == x.id)) := by
  induction l generalizing s with
  | nil => simp
  | cons c rest ih =>
    rw [List.foldl_cons, ih]
    simp only [State.callOver, State.withEvent, List.filter_filter, List.any_cons]
    refine List.filter_congr (fun x _ => ?_)
    rw [Bool.not_or, Bool.and_comm, bne, Bool.beq_comm]

/-- Ended calls post CALL ENDED one after another, and touch nothing else of the control interface. -/
theorem foldl_callOver_ctl (l : List Call) (cause : Nat) (s u : State) (h : s.ctl = u.ctl)
    (k : s.ring.cycleNumber = u.ring.cycleNumber) :
    (l.foldl (fun s c => s.callOver c cause) s).ctl =
      (l.foldl (fun s c => s.withEvent .callEnded c.id.toNat cause) u).ctl := by
  induction l generalizing s u with
  | nil => exact h
  | cons c rest ih =>
    rw [List.foldl_cons, List.foldl_cons]
    refine ih _ _ ?_ ?_
    · simp only [State.callOver, State.withEvent, h, k]
    · simp only [State.callOver, State.withEvent, k]

/-- The record of a call's id, in a table with distinct ids. -/
theorem callWith_of_nodup (s : State) (c : Call) (h : (s.icom.calls.map (·.id)).Nodup) (hc : c ∈ s.icom.calls) :
    s.callWith c.id = some c := by
  cases e : s.callWith c.id with
  | none => exact absurd (List.find?_eq_none.mp e c hc) (by simp)
  | some x =>
    have hx := List.find?_some e
    exact congrArg some (List.inj_on_of_nodup_map h (List.mem_of_find?_eq_some e) hc (by simpa using hx))

/-- In a table with distinct ids every call that a test picks ends, in the order of the table (R142, R150). -/
theorem endCalls_eq (s : State) (pick : Call → Bool) (cause : Nat) (h : (s.icom.calls.map (·.id)).Nodup) :
    s.endCalls pick (BitVec.ofNat 4 cause) = (s.icom.calls.filter pick).foldl (fun s c => s.callOver c cause) s := by
  simp only [State.endCalls]
  have hl := (h.sublist (List.filter_sublist.map Call.id) : ((s.icom.calls.filter pick).map (·.id)).Nodup)
  have hm : ∀ c ∈ s.icom.calls.filter pick, c ∈ s.icom.calls := fun c hc => (List.mem_filter.mp hc).1
  generalize s.icom.calls.filter pick = l at hl hm
  induction l generalizing s with
  | nil => rfl
  | cons c rest ih =>
    have hc := List.nodup_cons.mp hl
    rw [List.map_cons, List.foldl_cons, List.foldl_cons,
      endCall_eq s c cause (callWith_of_nodup s c h (hm c List.mem_cons_self))]
    refine ih _ (h.sublist (List.filter_sublist.map _)) hc.2 (fun x hx => ?_)
    refine List.mem_filter.mpr ⟨hm x (List.mem_cons_of_mem _ hx), ?_⟩
    have hne : x.id ≠ c.id := fun e => hc.1 (List.mem_map.mpr ⟨x, hx, e⟩)
    simpa using hne

/-- The calls that are left are those the test does not pick. -/
theorem endCalls_calls (s : State) (pick : Call → Bool) (cause : Nat) (h : (s.icom.calls.map (·.id)).Nodup) :
    (s.endCalls pick (BitVec.ofNat 4 cause)).icom.calls = s.icom.calls.filter (fun c => !pick c) := by
  rw [endCalls_eq s pick cause h, foldl_callOver_calls]
  refine List.filter_congr (fun x hx => congrArg (! ·) ?_)
  rw [Bool.eq_iff_iff]
  simp only [List.any_eq_true, beq_iff_eq, List.mem_filter]
  constructor
  · rintro ⟨c, ⟨hc, hp⟩, e⟩
    exact List.inj_on_of_nodup_map h hc hx e ▸ hp
  · exact fun hp => ⟨x, ⟨hx, hp⟩, rfl⟩

/-- Each call that ends posts CALL ENDED, in the order of the table; the control interface changes in nothing else. -/
theorem endCalls_ctl (s : State) (pick : Call → Bool) (cause : Nat) (h : (s.icom.calls.map (·.id)).Nodup) :
    (s.endCalls pick (BitVec.ofNat 4 cause)).ctl =
      ((s.icom.calls.filter pick).foldl (fun s c => s.withEvent .callEnded c.id.toNat cause) s).ctl := by
  rw [endCalls_eq s pick cause h]
  exact foldl_callOver_ctl _ _ _ _ rfl rfl

/-- The call a station is a party to is in the table. -/
theorem callOf_mem (s : State) (p : Fin 32) (c : Call) (h : s.callOf p = some c) :
    c ∈ s.icom.calls ∧ p ∈ c.stations := by
  have := List.find?_some h
  exact ⟨List.mem_of_find?_eq_some h, by simpa using this⟩

/-! ### Creation -/

/-- The call table keeps the ascending order of its ids. -/
theorem insertCall_split (c : Call) (l : List Call) :
    ∃ before after : List Call, l = before ++ after ∧ insertCall c l = before ++ c :: after := by
  induction l with
  | nil => exact ⟨[], [], rfl, rfl⟩
  | cons x rest ih =>
    simp only [insertCall]
    split
    · obtain ⟨b, a, h1, h2⟩ := ih
      exact ⟨x :: b, a, by simp [h1], by simp [h2]⟩
    · exact ⟨[], x :: rest, rfl, rfl⟩

theorem insertCall_sorted (c : Call) (l : List Call) (h : l.Pairwise (fun a b => a.id.toNat < b.id.toNat))
    (hn : ∀ x ∈ l, x.id ≠ c.id) : (insertCall c l).Pairwise (fun a b => a.id.toNat < b.id.toNat) := by
  induction l with
  | nil => simp [insertCall]
  | cons x rest ih =>
    have hx := List.pairwise_cons.mp h
    have hne : x.id.toNat ≠ c.id.toNat := fun e => hn x (List.mem_cons_self ..) (BitVec.eq_of_toNat_eq e)
    simp only [insertCall]
    split
    · rename_i hle
      refine List.pairwise_cons.mpr ⟨?_, ih hx.2 (fun y hy => hn y (List.mem_cons_of_mem _ hy))⟩
      intro y hy
      obtain ⟨b, a, h1, h2⟩ := insertCall_split c rest
      rw [h2] at hy
      rcases List.mem_append.mp hy with hy | hy
      · exact hx.1 y (by rw [h1]; exact List.mem_append_left _ hy)
      · rcases List.mem_cons.mp hy with rfl | hy
        · omega
        · exact hx.1 y (by rw [h1]; exact List.mem_append_right _ hy)
    · rename_i hle
      refine List.pairwise_cons.mpr ⟨?_, h⟩
      intro y hy
      rcases List.mem_cons.mp hy with rfl | hy
      · omega
      · exact lt_trans (by omega) (hx.1 y hy)

/-- The creation of a call: its record joins the table, the last call id is its id, the cue timers of its stations are
0. -/
theorem createCall_eq (s : State) (parties : CallParties) (emergency : Bool) (headRef : Word16) :
    s.createCall parties emergency headRef =
      let c := newCall s.nextCallId parties emergency headRef
      { s with icom := { s.icom with
        calls := insertCall c s.icom.calls, lastCall := c.id
        table := mapTable (fun p (e : Option Station) =>
          if p ∈ c.stations then e.map (fun e => { e with cueTimer := 0, cueDue := false }) else e) s.icom.table } } := by
  have ht : cuesOff s.icom.table
        (fun p => (newCall s.nextCallId parties emergency headRef).stations.contains p && true) =
      mapTable (fun p (e : Option Station) =>
        if p ∈ (newCall s.nextCallId parties emergency headRef).stations then
          e.map (fun e => { e with cueTimer := 0, cueDue := false })
        else e) s.icom.table := by
    simp only [cuesOff, Bool.and_true, List.contains_iff_mem]
  have := foldl_setCue (fun _ _ => true) (newCall s.nextCallId parties emergency headRef).stations
    (s.setIcom { s.icom with
      calls := insertCall (newCall s.nextCallId parties emergency headRef) s.icom.calls
      lastCall := (newCall s.nextCallId parties emergency headRef).id })
  simp only [if_true] at this
  simp only [State.createCall]
  rw [this, ← ht]; rfl

/-! ### Hold -/

/-- The operation of R145 sees what the statements say of watched stations. -/
theorem underHold_iff (s : State) (c : Call) : s.underHold c = true ↔ s.heldNow c := by
  simp only [State.underHold, State.heldNow, List.any_eq_true, Option.any_eq_true, State.listenZone]
  constructor
  · rintro ⟨p, hp, z, hz, hg⟩
    cases he : s.icom.table[p] with
    | none => rw [he] at hz; cases hz
    | some e => rw [he] at hz; exact ⟨p, hp, e, z, he, hz, hg⟩
  · rintro ⟨p, hp, e, z, he, hl, hg⟩
    exact ⟨p, hp, z, by rw [he]; exact hl, hg⟩

/-- From one state to another only states and hold timers of calls, and clash counts of inserts, have changed. -/
structure HoldsOnly (s t : State) : Prop where
  rest : t = { s with
    ring := { s.ring with inserts := t.ring.inserts }, icom := { s.icom with calls := t.icom.calls } }
  ids : t.icom.calls.map (·.id) = s.icom.calls.map (·.id)
  slots : t.ring.inserts.map (·.slot) = s.ring.inserts.map (·.slot)

theorem HoldsOnly.refl (s : State) : HoldsOnly s s := ⟨rfl, rfl, rfl⟩

theorem HoldsOnly.trans {s t u : State} (h : HoldsOnly s t) (k : HoldsOnly t u) : HoldsOnly s u := by
  refine ⟨?_, k.ids.trans h.ids, k.slots.trans h.slots⟩
  have h1 := h.rest
  have h2 := k.rest
  rw [h1] at h2
  exact h2

theorem updateCall_holdsOnly (s : State) (id : CallId) (f : Call → Call) (hf : ∀ c, (f c).id = c.id) :
    HoldsOnly s (s.updateCall id f) := by
  refine ⟨rfl, ?_, rfl⟩
  simp only [State.updateCall, State.setIcom_icom, List.map_map]
  refine List.map_congr_left (fun c _ => ?_)
  simp only [Function.comp]; split <;> simp [hf]

theorem endActivation_holdsOnly (s : State) (source : InsertSource) : HoldsOnly s (s.endActivation source) := by
  refine ⟨rfl, rfl, ?_⟩
  simp only [State.endActivation, State.setRing_ring, List.map_map]
  refine List.map_congr_left (fun c _ => ?_)
  simp only [Function.comp]; split <;> rfl

theorem connect_holdsOnly (s : State) (c : Call) : HoldsOnly s (s.connect c) := by
  simp only [State.connect]
  exact updateCall_holdsOnly _ _ _ (fun x => by split <;> rfl)

theorem holdOrResume_holdsOnly (s : State) (c : Call) : HoldsOnly s (s.holdOrResume c) := by
  simp only [State.holdOrResume]
  split
  · split
    · exact (connect_holdsOnly _ _).trans (endActivation_holdsOnly _ _)
    · exact .refl _
  · split
    · exact .refl _
    · exact connect_holdsOnly _ _
  · exact .refl _

/-- All that a hand-off of coverage can change in the intercom switch. -/
theorem handIntercom_holdsOnly (s : State) : HoldsOnly s s.handIntercom := by
  simp only [State.handIntercom]
  generalize s.icom.calls = l
  induction l generalizing s with
  | nil => exact .refl _
  | cons c rest ih => exact (holdOrResume_holdsOnly s c).trans (ih _)

end Sys2Proof.Machine
end

