-- ==== Sys2Proof/Laws/Pages.lean ====
section
/-! SUPPORT. What the page scheduler can change: records of the queue in place, players, the burst they asked for, and
the event list; one lemma for each of its operations, up to the grant passes of a period and the end of a page. -/

namespace Sys2Proof.Machine

/-- From one state to another only the page queue, players, the burst in progress and the event list have changed, and
the event list only at its end. -/
structure PagesFrame (s t : State) : Prop where
  ring : t.ring = s.ring
  buffer : t.ctl.buffer = s.ctl.buffer
  reply : t.ctl.reply = s.ctl.reply
  settings : t.ctl.settings = s.ctl.settings
  incoming : t.ctl.incoming = s.ctl.incoming
  events : s.ctl.events <+: t.ctl.events
  ports : t.ports = s.ports
  mix : t.mix = s.mix
  scene : t.scene = s.scene
  feeds : t.feeds = s.feeds
  directory : t.clips.directory = s.clips.directory
  memory : t.clips.memory = s.clips.memory
  writeBuffer : t.clips.writeBuffer = s.clips.writeBuffer
  capture : t.clips.capture = s.clips.capture
  icom : t.icom = s.icom
  alarm : t.alarm = s.alarm
  lines : t.lines = s.lines
  trackers : t.trackers = s.trackers
  recent : t.recent = s.recent
  older : t.older = s.older
  pending : t.pending = s.pending

namespace PagesFrame

theorem refl (s : State) : PagesFrame s s := by
  constructor <;> rfl

theorem trans {s t u : State} (h : PagesFrame s t) (k : PagesFrame t u) : PagesFrame s u where
  ring := k.ring.trans h.ring
  buffer := k.buffer.trans h.buffer
  reply := k.reply.trans h.reply
  settings := k.settings.trans h.settings
  incoming := k.incoming.trans h.incoming
  events := h.events.trans k.events
  ports := k.ports.trans h.ports
  mix := k.mix.trans h.mix
  scene := k.scene.trans h.scene
  feeds := k.feeds.trans h.feeds
  directory := k.directory.trans h.directory
  memory := k.memory.trans h.memory
  writeBuffer := k.writeBuffer.trans h.writeBuffer
  capture := k.capture.trans h.capture
  icom := k.icom.trans h.icom
  alarm := k.alarm.trans h.alarm
  lines := k.lines.trans h.lines
  trackers := k.trackers.trans h.trackers
  recent := k.recent.trans h.recent
  older := k.older.trans h.older
  pending := k.pending.trans h.pending

/-- A fold of operations that each keep the frame keeps it. -/
theorem foldl {α : Type} (f : State → α → State) (hf : ∀ s x, PagesFrame s (f s x)) (l : List α) (s : State) :
    PagesFrame s (l.foldl f s) := by
  induction l generalizing s with
  | nil => exact refl _
  | cons x rest ih => exact (hf s x).trans (ih _)

end PagesFrame

/-- Beside the frame, only the contents of page records have changed: the same records stand in the same order. -/
structure PagesOnly (s t : State) : Prop extends PagesFrame s t where
  ids : t.pages.queue.map (·.id) = s.pages.queue.map (·.id)
  priorities : t.pages.queue.map (·.priority) = s.pages.queue.map (·.priority)
  arrival : t.pages.nextArrival = s.pages.nextArrival
  passes : t.pages.passes = s.pages.passes

namespace PagesOnly

theorem refl (s : State) : PagesOnly s s := ⟨.refl s, rfl, rfl, rfl, rfl⟩

theorem trans {s t u : State} (h : PagesOnly s t) (k : PagesOnly t u) : PagesOnly s u :=
  ⟨h.toPagesFrame.trans k.toPagesFrame, k.ids.trans h.ids, k.priorities.trans h.priorities, k.arrival.trans h.arrival,
    k.passes.trans h.passes⟩

/-- A fold of operations that each change only pages changes only pages. -/
theorem foldl {α : Type} (f : State × Bool → α → State × Bool) (hf : ∀ r x, PagesOnly r.1 (f r x).1) (l : List α)
    (r : State × Bool) : PagesOnly r.1 (l.foldl f r).1 := by
  induction l generalizing r with
  | nil => exact refl _
  | cons x rest ih => exact (hf r x).trans (ih _)

end PagesOnly

/-! ### One operation after another -/

theorem post_pagesOnly (s : State) (kind : EventKind) (n : Word16) (d : BitVec 4) : PagesOnly s (s.post kind n d) := by
  refine ⟨?_, rfl, rfl, rfl, rfl⟩
  constructor <;> first | rfl | exact post_events_prefix _ _ _ _ | simp

/-- A record changed in place, its id and priority kept. -/
theorem updatePage_pagesOnly (s : State) (id : PageId) (f : Page → Page) (hid : ∀ p, (f p).id = p.id)
    (hp : ∀ p, (f p).priority = p.priority) : PagesOnly s (s.updatePage id f) := by
  refine ⟨?_, ?_, ?_, rfl, rfl⟩
  · constructor <;> rfl
  · simp only [State.updatePage, State.setPages_pages, List.map_map]
    refine List.map_congr_left (fun p _ => ?_)
    simp only [Function.comp]; split <;> simp [hid]
  · simp only [State.updatePage, State.setPages_pages, List.map_map]
    refine List.map_congr_left (fun p _ => ?_)
    simp only [Function.comp]; split <;> simp [hp]

theorem setPlayer_pagesOnly (s : State) (p : Fin 4) (x : Player) : PagesOnly s (s.setPlayer p x) := by
  refine ⟨?_, rfl, rfl, rfl, rfl⟩
  constructor <;> rfl

theorem dropBurst_pagesOnly (s : State) (p : Fin 4) : PagesOnly s (s.dropBurst p) := by
  refine ⟨?_, rfl, rfl, rfl, rfl⟩
  constructor <;> rfl

theorem releasePlayer_pagesOnly (s : State) (p : Fin 4) : PagesOnly s (s.releasePlayer p) :=
  (dropBurst_pagesOnly s p).trans (setPlayer_pagesOnly _ _ _)

theorem handSequence_pagesOnly (s : State) (p : Fin 4) (l : List (Fin 256)) (c : Bool) :
    PagesOnly s (s.handSequence p l c) :=
  (dropBurst_pagesOnly s p).trans (setPlayer_pagesOnly _ _ _)

theorem freePage_pagesOnly (s : State) (id : PageId) : PagesOnly s (s.freePage id) := by
  simp only [State.freePage]
  split
  · split
    · exact (releasePlayer_pagesOnly _ _).trans (updatePage_pagesOnly _ _ _ (fun _ => rfl) (fun _ => rfl))
    · exact .refl _
  · exact .refl _

theorem suspendPage_pagesOnly (s : State) (id : PageId) : PagesOnly s (s.suspendPage id) := by
  simp only [State.suspendPage]
  have h := (freePage_pagesOnly s id).trans (updatePage_pagesOnly (s.freePage id) id (fun p =>
    { p with state := .suspended, granted := 0, joining := 0, restartIn := none, suspPosted := true })
    (fun _ => rfl) (fun _ => rfl))
  split
  · exact h
  · exact h.trans (post_pagesOnly _ _ _ _)

theorem losePage_pagesOnly (lost : ZoneSet) (id : PageId) (r : State × Bool) :
    PagesOnly r.1 (losePage lost id r).1 := by
  simp only [losePage]
  split
  · split
    · exact suspendPage_pagesOnly _ _
    · split
      · exact .refl _
      · exact updatePage_pagesOnly _ _ _ (fun _ => rfl) (fun _ => rfl)
  · exact .refl _

theorem takeZones_pagesOnly (s : State) (id : PageId) (zones : ZoneSet) : PagesOnly s (s.takeZones id zones).1 := by
  simp only [State.takeZones]
  exact (PagesOnly.foldl _ (fun r q => losePage_pagesOnly zones q r) _ (s, false)).trans
    (updatePage_pagesOnly _ _ _ (fun _ => rfl) (fun _ => rfl))

theorem startRepeat_pagesOnly (s : State) (id : PageId) : PagesOnly s (s.startRepeat id) := by
  simp only [State.startRepeat]
  split
  · rename_i p _
    have h := updatePage_pagesOnly s id (fun p =>
      { p with
        restartIn := none
        phase := if p.sequence.2 then .chime else .audio
        sourceLoss := if p.clip then p.sourceLoss else 0 }) (fun _ => rfl) (fun _ => rfl)
    split
    · split
      · exact h.trans (handSequence_pagesOnly _ _ _ _)
      · exact h
    · exact h
  · exact .refl _

theorem grantPage_pagesOnly (s : State) (p : Page) (zones : ZoneSet) : PagesOnly s (s.grantPage p zones).1 := by
  simp only [State.grantPage]
  have h := takeZones_pagesOnly s p.id zones
  have h2 : PagesOnly s (if p.needsPlayer then (s.takeZones p.id zones).1.updatePage p.id
      (fun q => { q with player := (s.takeZones p.id zones).1.freePlayer }) else (s.takeZones p.id zones).1) := by
    split
    · exact h.trans (updatePage_pagesOnly _ _ _ (fun _ => rfl) (fun _ => rfl))
    · exact h
  have h3 := h2.trans (updatePage_pagesOnly _ p.id (fun q => { q with state := .playing, started := true })
    (fun _ => rfl) (fun _ => rfl))
  have h4 := h3.trans (startRepeat_pagesOnly _ p.id)
  split
  · exact h4
  · exact h4.trans (post_pagesOnly _ _ _ _)

theorem examinePage_pagesOnly (id : PageId) (r : State × Bool) : PagesOnly r.1 (examinePage id r).1 := by
  simp only [examinePage]
  split
  · exact .refl _
  · split
    · split
      · exact .refl _
      · split
        · exact updatePage_pagesOnly _ _ _ (fun _ => rfl) (fun _ => rfl)
        · exact (takeZones_pagesOnly _ _ _).trans (updatePage_pagesOnly _ _ _ (fun _ => rfl) (fun _ => rfl))
    · split
      · exact .refl _
      · split
        · split
          · exact grantPage_pagesOnly _ _ _
          · exact .refl _
        · split
          · exact grantPage_pagesOnly _ _ _
          · exact .refl _

theorem walk_pagesOnly (s : State) : PagesOnly s (walk s).1 :=
  PagesOnly.foldl _ (fun r id => examinePage_pagesOnly id r) _ (s, false)

theorem walks_pagesOnly (n : Nat) (s : State) : PagesOnly s (walks n s) := by
  induction n generalizing s with
  | zero => exact .refl _
  | succ n ih =>
    simp only [walks]
    split
    · exact (walk_pagesOnly s).trans (ih _)
    · exact walk_pagesOnly s

/-- All that a grant pass can change. -/
theorem grantPass_pagesOnly (s : State) : PagesOnly s s.grantPass := walks_pagesOnly _ _

theorem revoke_pagesOnly (s : State) : PagesOnly s s.revoke := by
  simp only [State.revoke]
  refine PagesOnly.foldl _ (fun r id => ?_) _ (s, false)
  split
  · exact losePage_pagesOnly _ _ _
  · exact .refl _

theorem duePasses_pagesFrame (s : State) (n : Nat) : PagesFrame s (s.duePasses n) := by
  constructor <;> rfl

theorem duePass_pagesFrame (s : State) : PagesFrame s s.duePass := duePasses_pagesFrame s 1

@[simp] theorem duePasses_queue (s : State) (n : Nat) : (s.duePasses n).pages.queue = s.pages.queue := rfl
@[simp] theorem duePasses_passes (s : State) (n : Nat) : (s.duePasses n).pages.passes = s.pages.passes + n := rfl
@[simp] theorem duePass_queue (s : State) : s.duePass.pages.queue = s.pages.queue := rfl
@[simp] theorem duePass_nextArrival (s : State) : s.duePass.pages.nextArrival = s.pages.nextArrival := rfl
@[simp] theorem duePass_passes (s : State) : s.duePass.pages.passes = s.pages.passes + 1 := rfl

/-- All that a hand-off of coverage, mode or threshold can change in the page scheduler. -/
theorem handScheduler_pagesFrame (s : State) : PagesFrame s s.handScheduler :=
  (revoke_pagesOnly s).toPagesFrame.trans (duePasses_pagesFrame _ _)

/-- A hand-off keeps every record in its place, and makes one pass due and one for each record it suspends. -/
theorem handScheduler_pages (s : State) : s.handScheduler.pages.queue.map (·.id) = s.pages.queue.map (·.id) ∧
    s.handScheduler.pages.passes = s.pages.passes + (1 + s.suspensions s.revokedZones) := by
  have h := revoke_pagesOnly s
  exact ⟨h.ids, congrArg (· + _) h.passes⟩

/-! ### A walk that takes nothing -/

/-- Taking no zone changes no record. -/
theorem losePage_zero (id : PageId) (r : State × Bool) : losePage 0 id r = r := by
  simp only [losePage]
  split
  · simp [Page.suspends]
  · rfl

theorem updatePage_id (s : State) (id : PageId) (f : Page → Page) (h : ∀ p, f p = p) : s.updatePage id f = s := by
  have : (fun p : Page => if p.id = id then f p else p) = fun p => p := by
    funext p; split <;> simp [h]
  simp [State.updatePage, this, State.setPages]

theorem takeZones_zero (s : State) (id : PageId) : s.takeZones id 0 = (s, false) := by
  have h : (s.pageIds.filter (· != id)).foldl (fun r q => losePage 0 q r) (s, false) = (s, false) := by
    generalize s.pageIds.filter (· != id) = l
    induction l with
    | nil => rfl
    | cons x rest ih => rw [List.foldl_cons, losePage_zero]; exact ih
  simp only [State.takeZones, h]
  rw [updatePage_id _ _ _ (by intro p; simp)]

/-! ### Joining the queue -/

/-- A record joins behind every record of equal or higher priority. -/
theorem insertPage_split (p : Page) (l : List Page) :
    ∃ before after : List Page, l = before ++ after ∧ insertPage p l = before ++ p :: after ∧
      (∀ q ∈ after.head?, q.priority < p.priority) ∧ ∀ q ∈ before, p.priority ≤ q.priority := by
  induction l with
  | nil => exact ⟨[], [], rfl, rfl, by simp, by simp⟩
  | cons q rest ih =>
    simp only [insertPage]
    split
    · rename_i h
      obtain ⟨b, a, h1, h2, h3, h4⟩ := ih
      refine ⟨q :: b, a, by simp [h1], by simp [h2], h3, ?_⟩
      intro x hx
      rcases List.mem_cons.mp hx with rfl | hx
      · exact h
      · exact h4 x hx
    · rename_i h
      exact ⟨[], q :: rest, rfl, rfl, by intro x hx; simp at hx; subst hx; omega, by simp⟩

/-- A queue in order of priority stays so. -/
theorem insertPage_sorted (p : Page) (l : List Page) (h : l.Pairwise (fun a b => b.priority ≤ a.priority)) :
    (insertPage p l).Pairwise (fun a b => b.priority ≤ a.priority) := by
  induction l with
  | nil => simp [insertPage]
  | cons q rest ih =>
    have hq := List.pairwise_cons.mp h
    simp only [insertPage]
    split
    · rename_i hp
      refine List.pairwise_cons.mpr ⟨?_, ih hq.2⟩
      intro x hx
      obtain ⟨b, a, h1, h2, -, -⟩ := insertPage_split p rest
      rw [h2] at hx
      rcases List.mem_append.mp hx with hx | hx
      · exact hq.1 x (by rw [h1]; exact List.mem_append_left _ hx)
      · rcases List.mem_cons.mp hx with rfl | hx
        · exact hp
        · exact hq.1 x (by rw [h1]; exact List.mem_append_right _ hx)
    · rename_i hp
      refine List.pairwise_cons.mpr ⟨?_, h⟩
      intro x hx
      rcases List.mem_cons.mp hx with rfl | hx
      · omega
      · exact le_trans (hq.1 x hx) (by omega)

/-! ### Ends -/

/-- What the removal of a record changes besides the queue itself. -/
theorem removePage_queue (s : State) (id : PageId) (cause : BitVec 4) :
    (s.removePage id cause).pages.queue = (s.freePage id).pages.queue.filter (fun p => p.id != id) := rfl

theorem removePage_ids (s : State) (id : PageId) (cause : BitVec 4) :
    (s.removePage id cause).pages.queue.map (·.id) = (s.pages.queue.map (·.id)).filter (fun x => x != id) := by
  rw [removePage_queue, ← (freePage_pagesOnly s id).ids, List.filter_map]
  rfl

theorem removePage_pagesFrame (s : State) (id : PageId) (cause : BitVec 4) : PagesFrame s (s.removePage id cause) := by
  have h := (freePage_pagesOnly s id).toPagesFrame
  have k : PagesFrame (s.freePage id) ((s.freePage id).setPages { (s.freePage id).pages with
      queue := (s.freePage id).pages.queue.filter (fun p => p.id != id) }) := by
    constructor <;> rfl
  exact (h.trans k).trans (post_pagesOnly _ _ _ _).toPagesFrame

/-- All that the end of a page can change. -/
theorem endPage_pagesFrame (s : State) (id : PageId) (cause : BitVec 4) : PagesFrame s (s.endPage id cause) :=
  (removePage_pagesFrame s id cause).trans (duePass_pagesFrame _)

/-- After the end of a page no record has its id, and every other record is still in the queue. -/
theorem endPage_ids (s : State) (id : PageId) (cause : BitVec 4) :
    (s.endPage id cause).pages.queue.map (·.id) = (s.pages.queue.map (·.id)).filter (fun x => x != id) := by
  rw [State.endPage, duePass_queue, removePage_ids]

/-! ### The passes of a period -/

theorem passesRun_pagesOnly (n : Nat) (s : State) : PagesOnly s (passesRun n s) := by
  induction n generalizing s with
  | zero => exact .refl s
  | succ n ih => exact (grantPass_pagesOnly s).trans (ih _)

theorem runPasses_pagesFrame (s : State) : PagesFrame s s.runPasses := by
  have h : PagesFrame s (s.setPages { s.pages with passes := 0 }) := by constructor <;> rfl
  exact h.trans (passesRun_pagesOnly _ _).toPagesFrame

/-- Passes leave no pass due and every record in its place. -/
theorem runPasses_pages (s : State) :
    s.runPasses.pages.passes = 0 ∧ s.runPasses.pages.queue.map (·.id) = s.pages.queue.map (·.id) :=
  have h := passesRun_pagesOnly s.pages.passes (s.setPages { s.pages with passes := 0 })
  ⟨h.passes, h.ids⟩

theorem pageExpired_pagesFrame (id : PageId) (s : State) : PagesFrame s (pageExpired id s) := by
  unfold pageExpired
  split
  · split
    · exact endPage_pagesFrame _ _ _
    · exact .refl _
  · exact .refl _

theorem expirePages_pagesFrame (s : State) : PagesFrame s s.expirePages :=
  PagesFrame.foldl _ (fun s id => pageExpired_pagesFrame id s) _ _

theorem settleRounds_pagesFrame (n : Nat) (s : State) : PagesFrame s (settleRounds n s) := by
  induction n generalizing s with
  | zero => exact .refl s
  | succ n ih =>
    unfold settleRounds
    split
    · exact .refl s
    · exact ((runPasses_pagesFrame s).trans (expirePages_pagesFrame _)).trans (ih _)

/-- All that the passes of a period and the ends they bring about can change. -/
theorem settle_pagesFrame (s : State) : PagesFrame s s.settle := settleRounds_pagesFrame _ s

/-- With no pass due nothing happens. -/
theorem settle_none (s : State) (h : s.pages.passes = 0) : s.settle = s := by
  simp [State.settle, settleRounds, h]

end Sys2Proof.Machine
end

