-- ==== Sys2Proof/Laws/Ring.lean ====
section
/-! SUPPORT. The ring interface: what becomes of a control word, the receiver's moves, the insert table and the send
list. -/

namespace Sys2Proof.Machine

/-! ### Control words -/

theorem passControl_hunt (s : State) (w : BitVec 32) (h : s.ring.rx = .hunt) : s.passControl w = s := by
  simp only [State.passControl, h]

theorem passControl_suspect (s : State) (w : BitVec 32) (h : s.ring.rx = .suspect) :
    s.passControl w = s.withControl w := by
  simp only [State.passControl, h]; rfl

/-- Writing the control slot is the operation the statements speak of. -/
theorem putControl_eq (s : State) (w : BitVec 32) : s.putControl w = s.withControl w := rfl

theorem clearBuffer_eq (s : State) : s.clearBuffer = s.withClearBuffer := rfl

/-! ### The receiver (R3 to R6) -/

/-- From one ring interface to another only the receiver has moved. -/
structure ReceiverOnly (r q : Ring) : Prop where
  inserts : q.inserts = r.inserts
  sendList : q.sendList = r.sendList
  address : q.address = r.address
  cycleNumber : q.cycleNumber = r.cycleNumber
  taps : q.taps = r.taps
  arrived : q.arrived = r.arrived
  forward : q.forward = r.forward
  sent : q.sent = r.sent

theorem resume_receiverOnly (r : Ring) (l : List Seen) : ReceiverOnly r (r.resume l) ∧ (r.resume l).rx = r.rx := by
  induction l with
  | nil => exact ⟨⟨rfl, rfl, rfl, rfl, rfl, rfl, rfl, rfl⟩, rfl⟩
  | cons x rest ih =>
    unfold Ring.resume
    split
    · split
      · exact ⟨⟨rfl, rfl, rfl, rfl, rfl, rfl, rfl, rfl⟩, rfl⟩
      · exact ih
    · exact ih

/-- An arriving cycle moves the receiver only: its tables stay. -/
theorem receive_receiverOnly (r : Ring) (align : Fin 1626) (c : RingCycle) : ReceiverOnly r (r.receive align c) := by
  simp only [Ring.receive]
  split
  · split
    · exact (resume_receiverOnly _ _).1
    · split
      · split <;> exact ⟨rfl, rfl, rfl, rfl, rfl, rfl, rfl, rfl⟩
      · exact (resume_receiverOnly _ _).1
  · split <;> exact ⟨rfl, rfl, rfl, rfl, rfl, rfl, rfl, rfl⟩
  · split
    · split <;> exact ⟨rfl, rfl, rfl, rfl, rfl, rfl, rfl, rfl⟩
    · split <;> exact ⟨rfl, rfl, rfl, rfl, rfl, rfl, rfl, rfl⟩

/-- A receiver that reads a cycle as the search finds it takes it as its candidate (R4). -/
theorem resume_single (r : Ring) (x : Seen) (h : x.pattern = Config.syncPattern) :
    r.resume [x] = { r with goodRun := 1, alignment := x.align, prevNumber := x.number, stream := [x] } := by
  simp [Ring.resume, h, followCandidate]

/-- A good cycle keeps a LOCKED receiver LOCKED; a bad one makes it SUSPECT with one miss. -/
theorem receive_locked (r : Ring) (align : Fin 1626) (c : RingCycle) (h : r.rx = .locked) :
    (r.receive align c).rx = (if r.good c then .locked else .suspect) ∧
      (r.good c = false → (r.receive align c).missCount = 1) := by
  simp only [Ring.receive, h]
  cases hg : r.good c <;> simp

/-! ### The insert table (R11) -/

/-- An insert joins with a slot that none names: the slots stay distinct. -/
theorem addInsert_nodup (s : State) (t : Fin 64) (src : InsertSource) (h : (s.ring.inserts.map (·.slot)).Nodup)
    (hn : s.slotNamed t = false) : ((s.addInsert t src).ring.inserts.map (·.slot)).Nodup := by
  simp only [State.addInsert, State.setRing_ring, List.map_append, List.map_cons, List.map_nil]
  refine List.nodup_append.mpr ⟨h, by simp, ?_⟩
  intro a ha b hb
  simp only [List.mem_singleton] at hb
  subst hb
  intro e
  subst e
  obtain ⟨i, hi, he⟩ := List.mem_map.mp ha
  have : s.slotNamed a = true := List.any_eq_true.mpr ⟨i, hi, by simp [he]⟩
  rw [hn] at this; cases this

/-- The removal of inserts keeps the slots distinct. -/
theorem filter_inserts_nodup (l : List Insert) (p : Insert → Bool) (h : (l.map (·.slot)).Nodup) :
    ((l.filter p).map (·.slot)).Nodup :=
  h.sublist (List.Sublist.map _ List.filter_sublist)

/-! ### The send list (R21) -/

/-- The word of an entry already in the list is replaced where it stands: the entries keep their order. -/
theorem placeSend_replaces (w : SendWord) (l : List SendWord) (h : w.entry ∈ l.map (·.entry)) :
    (placeSend w l).map (·.entry) = l.map (·.entry) := by
  have ha : l.any (fun x => x.entry == w.entry) = true := by
    obtain ⟨x, hx, he⟩ := List.mem_map.mp h
    exact List.any_eq_true.mpr ⟨x, hx, by simp [he]⟩
  simp only [placeSend, ha, if_true, List.map_map]
  refine List.map_congr_left (fun x _ => ?_)
  simp only [Function.comp]
  split
  · rename_i e; exact e.symm
  · rfl

/-- A word of a new entry makes the list one longer. -/
theorem joinSend_length (w : SendWord) (l : List SendWord) : (joinSend w l).length = l.length + 1 := by
  induction l with
  | nil => rfl
  | cons x rest ih =>
    simp only [joinSend]; split
    · rfl
    · simp [ih]

/-- A word of a new entry joins the tail, among the words of its period by entry (R21). -/
theorem joinSend_eq (w : SendWord) (l : List SendWord) (h : ∀ x ∈ l, x.entry ≠ w.entry) :
    joinSend w l = l.takeWhile (fun x => !x.fresh || decide (x.entry < w.entry)) ++
      w :: l.dropWhile (fun x => !x.fresh || decide (x.entry < w.entry)) := by
  induction l with
  | nil => rfl
  | cons x rest ih =>
    have hx := h x (by simp)
    have ih := ih (fun y hy => h y (by simp [hy]))
    have e : (!x.fresh || decide (x.entry < w.entry)) = !(x.fresh && decide (w.entry < x.entry)) := by
      cases x.fresh
      · rfl
      · simp only [Bool.not_true, Bool.false_or, Bool.true_and, ← decide_not]
        congr 1; simp only [eq_iff_iff]; omega
    simp only [joinSend, List.takeWhile_cons, List.dropWhile_cons, e]
    cases (x.fresh && decide (w.entry < x.entry)) <;> simp [ih]

/-- A placement is the one the statements speak of. -/
theorem placeSend_eq (w : SendWord) (l : List SendWord) : placeSend w l = w.placedIn l := by
  simp only [placeSend, SendWord.placedIn, List.any_eq_true, beq_iff_eq]
  split
  · rfl
  · rename_i h
    push Not at h
    exact joinSend_eq _ l h

end Sys2Proof.Machine
end

