-- ==== Sys2Proof/Laws/Alarms.lean ====
section
/-! SUPPORT. What the alarm engine can change: coverage and generators, what a hand-off of coverage leaves, and the start
and the end of a record. -/

namespace Sys2Proof.Machine

/-! ### Generators and coverage -/

/-- From one alarm engine to another only coverage and generators have changed. -/
structure SameRecords (a b : Alarm) : Prop where
  patterns : b.patterns = a.patterns
  groups : b.groups = a.groups
  contacts : b.contacts = a.contacts
  records : b.records = a.records
  startOrder : b.startOrder = a.startOrder

theorem SameRecords.refl (a : Alarm) : SameRecords a a := ⟨rfl, rfl, rfl, rfl, rfl⟩

theorem SameRecords.trans {a b c : Alarm} (h : SameRecords a b) (k : SameRecords b c) : SameRecords a c :=
  ⟨k.patterns.trans h.patterns, k.groups.trans h.groups, k.contacts.trans h.contacts, k.records.trans h.records,
    k.startOrder.trans h.startOrder⟩

theorem takeGenerator_coverage (a : Alarm) (e : Fin 8) :
    (a.takeGenerator e).coverage = a.coverage ∧ SameRecords a (a.takeGenerator e) := by
  simp only [Alarm.takeGenerator]
  split
  · exact ⟨rfl, SameRecords.refl a⟩
  · split
    · exact ⟨rfl, rfl, rfl, rfl, rfl, rfl⟩
    · exact ⟨rfl, SameRecords.refl a⟩

theorem foldl_takeGenerator (l : List (Fin 8)) (a : Alarm) :
    (l.foldl Alarm.takeGenerator a).coverage = a.coverage ∧ SameRecords a (l.foldl Alarm.takeGenerator a) := by
  induction l generalizing a with
  | nil => exact ⟨rfl, SameRecords.refl a⟩
  | cons e rest ih =>
    have h1 := takeGenerator_coverage a e
    have h2 := ih (a.takeGenerator e)
    exact ⟨h2.1.trans h1.1, SameRecords.trans h1.2 h2.2⟩

theorem keepGenerators_coverage (a : Alarm) (pick : Fin 8 → Bool) :
    (a.keepGenerators pick).coverage = a.coverage ∧ SameRecords a (a.keepGenerators pick) :=
  ⟨rfl, rfl, rfl, rfl, rfl, rfl⟩

theorem allocate_eq (a : Alarm) : a.allocate =
    (a.winners.take 4).foldl Alarm.takeGenerator (a.keepGenerators (fun e => (a.winners.take 4).contains e)) := by
  simp only [Alarm.allocate]

theorem allocate_coverage (a : Alarm) : a.allocate.coverage = a.coverage ∧ SameRecords a a.allocate := by
  rw [allocate_eq]
  generalize a.winners.take 4 = l
  obtain ⟨h1, h2⟩ := keepGenerators_coverage a (fun e => l.contains e)
  obtain ⟨k1, k2⟩ := foldl_takeGenerator l (a.keepGenerators (fun e => l.contains e))
  exact ⟨k1.trans h1, SameRecords.trans h2 k2⟩

/-- Coverage names, for each zone, the winning record of R165; nothing but coverage and generators changes. -/
theorem recompute_spec (a : Alarm) :
    (∀ z : Fin 24, a.recompute.coverage[z] = a.winnerOf z) ∧ SameRecords a a.recompute := by
  have h := allocate_coverage { a with coverage := Vector.ofFn a.winnerOf }
  have e : a.recompute = Alarm.allocate { a with coverage := Vector.ofFn a.winnerOf } := by
    simp only [Alarm.recompute]
  rw [e]
  have k : SameRecords a { a with coverage := Vector.ofFn a.winnerOf } := ⟨rfl, rfl, rfl, rfl, rfl⟩
  refine ⟨fun z => ?_, k.trans h.2⟩
  simp [h.1]

/-! ### The hand-off of coverage -/

/-- From one state to another only coverage and generators, and what the page scheduler and the intercom switch do at a
hand-off, have changed. -/
structure CoverageOnly (s t : State) : Prop where
  alarm : SameRecords s.alarm t.alarm
  sendList : t.ring.sendList = s.ring.sendList
  forward : t.ring.forward = s.ring.forward
  address : t.ring.address = s.ring.address
  rx : t.ring.rx = s.ring.rx
  cycleNumber : t.ring.cycleNumber = s.ring.cycleNumber
  slots : t.ring.inserts.map (·.slot) = s.ring.inserts.map (·.slot)
  events : s.ctl.events <+: t.ctl.events
  buffer : t.ctl.buffer = s.ctl.buffer
  reply : t.ctl.reply = s.ctl.reply
  settings : t.ctl.settings = s.ctl.settings
  incoming : t.ctl.incoming = s.ctl.incoming
  callIds : t.icom.calls.map (·.id) = s.icom.calls.map (·.id)
  pageIds : t.pages.queue.map (·.id) = s.pages.queue.map (·.id)
  ports : t.ports = s.ports
  mix : t.mix = s.mix
  scene : t.scene = s.scene
  feeds : t.feeds = s.feeds
  directory : t.clips.directory = s.clips.directory
  memory : t.clips.memory = s.clips.memory
  lines : t.lines = s.lines
  trackers : t.trackers = s.trackers
  pending : t.pending = s.pending

theorem setAlarm_coverageOnly (s : State) (a : Alarm) (h : SameRecords s.alarm a) : CoverageOnly s (s.setAlarm a) := by
  constructor <;> first | rfl | exact h

theorem handedOver_coverageOnly (s : State) : CoverageOnly s s.handScheduler.handIntercom := by
  have h := handScheduler_pagesFrame s
  have k := handIntercom_holdsOnly s.handScheduler
  have r := k.rest
  constructor
  · rw [r]; exact h.alarm ▸ SameRecords.refl s.alarm
  · rw [r]; exact (congrArg Ring.sendList h.ring :)
  · rw [r]; exact (congrArg Ring.forward h.ring :)
  · rw [r]; exact (congrArg Ring.address h.ring :)
  · rw [r]; exact (congrArg Ring.rx h.ring :)
  · rw [r]; exact (congrArg Ring.cycleNumber h.ring :)
  · rw [k.slots, h.ring]
  · rw [r]; exact h.events
  · rw [r]; exact h.buffer
  · rw [r]; exact h.reply
  · rw [r]; exact h.settings
  · rw [r]; exact h.incoming
  · rw [k.ids, h.icom]
  · rw [r]; exact (handScheduler_pages s).1
  · rw [r]; exact h.ports
  · rw [r]; exact h.mix
  · rw [r]; exact h.scene
  · rw [r]; exact h.feeds
  · rw [r]; exact h.directory
  · rw [r]; exact h.memory
  · rw [r]; exact h.lines
  · rw [r]; exact h.trackers
  · rw [r]; exact h.pending

theorem CoverageOnly.trans {s t u : State} (h : CoverageOnly s t) (k : CoverageOnly t u) : CoverageOnly s u where
  alarm := SameRecords.trans h.alarm k.alarm
  sendList := k.sendList.trans h.sendList
  forward := k.forward.trans h.forward
  address := k.address.trans h.address
  rx := k.rx.trans h.rx
  cycleNumber := k.cycleNumber.trans h.cycleNumber
  slots := k.slots.trans h.slots
  events := h.events.trans k.events
  buffer := k.buffer.trans h.buffer
  reply := k.reply.trans h.reply
  settings := k.settings.trans h.settings
  incoming := k.incoming.trans h.incoming
  callIds := k.callIds.trans h.callIds
  pageIds := k.pageIds.trans h.pageIds
  ports := k.ports.trans h.ports
  mix := k.mix.trans h.mix
  scene := k.scene.trans h.scene
  feeds := k.feeds.trans h.feeds
  directory := k.directory.trans h.directory
  memory := k.memory.trans h.memory
  lines := k.lines.trans h.lines
  trackers := k.trackers.trans h.trackers
  pending := k.pending.trans h.pending

/-- All that a recomputation of coverage can change, hand-off included. -/
theorem recoverage_coverageOnly (s : State) (before : Alarm) : CoverageOnly s (s.recoverage before) := by
  have h := setAlarm_coverageOnly s s.alarm.recompute (recompute_spec s.alarm).2
  simp only [State.recoverage]
  split
  · exact h
  · exact h.trans (handedOver_coverageOnly _)

theorem recoverage_alarm (s : State) (before : Alarm) : (s.recoverage before).alarm = s.alarm.recompute := by
  have h : (s.setAlarm s.alarm.recompute).handScheduler.handIntercom.alarm = s.alarm.recompute :=
    (congrArg State.alarm (handIntercom_holdsOnly _).rest).trans (handScheduler_pagesFrame _).alarm
  simp only [State.recoverage]
  split
  · rfl
  · exact h

/-- After it, coverage names the winning records. -/
theorem recoverage_coverage (s : State) (before : Alarm) (z : Fin 24) :
    (s.recoverage before).alarm.coverage[z] = s.alarm.winnerOf z := by
  rw [← (recompute_spec s.alarm).1 z]
  simp only [recoverage_alarm]

/-- A zone's winning record is one that covers it. -/
theorem winnerOf_covers (a : Alarm) (z : Fin 24) (e : Fin 8) (h : a.winnerOf z = some e) : a.covers z e = true := by
  have : e ∈ a.ranked (a.startOrder.filter (a.covers z)) := List.mem_of_mem_head? h
  simp only [Alarm.ranked, List.mem_flatMap, List.mem_filter] at this
  obtain ⟨_, _, h1, _⟩ := this
  exact h1.2

/-! ### The start and the end of a record -/

/-- All that the start of a record changes (R154). -/
theorem startRecord_spec (s : State) (e : Fin 8) (r : AlarmRec) :
    (s.startRecord e r).alarm.records = put s.alarm.records e (some r) ∧
    (s.startRecord e r).alarm.startOrder = s.alarm.startOrder.filter (· != e) ++ [e] ∧
    (s.startRecord e r).ring.sendList =
      (if r.broadcast then placeSend
        { entry := e, on := true, group := r.group, cls := r.cls, pattern := r.pattern, fresh := true } s.ring.sendList
      else s.ring.sendList) ∧
    (s.post .alarmBegun (BitVec.ofNat 16 e.val) (BitVec.ofNat 4 r.cls.rank)).ctl.events <+:
      (s.startRecord e r).ctl.events := by
  simp only [State.startRecord]
  cases hb : r.broadcast
  · have h := recoverage_coverageOnly
      ((s.setAlarm { s.alarm with
        records := put s.alarm.records e (some r)
        startOrder := s.alarm.startOrder.filter (· != e) ++ [e] }).post .alarmBegun (BitVec.ofNat 16 e.val)
        (BitVec.ofNat 4 r.cls.rank)) s.alarm
    exact ⟨h.alarm.records, h.alarm.startOrder, h.sendList, h.events⟩
  · have h := recoverage_coverageOnly
      (((s.setAlarm { s.alarm with
        records := put s.alarm.records e (some r)
        startOrder := s.alarm.startOrder.filter (· != e) ++ [e] }).post .alarmBegun (BitVec.ofNat 16 e.val)
        (BitVec.ofNat 4 r.cls.rank)).placeRecord e r true) s.alarm
    exact ⟨h.alarm.records, h.alarm.startOrder, h.sendList, h.events⟩

/-- The start of a record is the one the statements speak of. -/
theorem startRecord_eq (s : State) (e : Fin 8) (r : AlarmRec) : s.startRecord e r = s.recordStarted e r := by
  simp only [State.startRecord, State.recordStarted, State.sending, State.placeRecord, State.placeSend, placeSend_eq]
  split <;> rfl

/-- The end of a record is the one the statements speak of. -/
theorem endRecord_eq (s : State) (e : Fin 8) (r : AlarmRec) (h : s.alarm.records[e] = some r) (cause : Nat) :
    s.endRecord e (BitVec.ofNat 4 cause) = s.recordEnded e r cause := by
  simp only [State.endRecord, h, State.recordEnded, State.sending, State.placeRecord, State.placeSend, placeSend_eq]
  split <;> split <;> rfl

end Sys2Proof.Machine
end

