-- ==== Sys2Proof/Laws/Arithmetic.lean ====
section
/-! SUPPORT. The sample arithmetic of 3.2 to 3.5: the clamp, the rounded divisions, the glide of the applied factor and
the step of the duck envelope. -/

namespace Sys2Proof.Machine

/-- The clamp answers a value of the sample range, so never the empty marker. -/
theorem saturate_range (x : Int) : -8388607 ≤ saturate x ∧ saturate x ≤ 8388607 := by
  simp only [saturate, Config.sampleMax]; omega

theorem saturate_ne_marker (x : Int) : saturate x ≠ Config.emptyMarker := by
  have := saturate_range x
  simp only [Config.emptyMarker]; omega

/-- The clamp leaves a value of the sample range as it is. -/
theorem saturate_of_range (x : Int) (h : -8388607 ≤ x) (k : x ≤ 8388607) : saturate x = x := by
  simp only [saturate, Config.sampleMax]; omega

/-- Rounded division by an even number: the nearest integer, a half going toward plus infinity. -/
theorem roundDiv_nearest (d : Nat) (x : Int) (hd : 0 < d) (he : d % 2 = 0) :
    2 * (d : Int) * roundDiv d x ≤ 2 * x + d ∧ 2 * x + d < 2 * (d : Int) * roundDiv d x + 2 * d := by
  have hpos : (0 : Int) < d := by exact_mod_cast hd
  have h1 := Int.mul_ediv_self_le (x := x + ((d / 2 : Nat) : Int)) (k := (d : Int)) (by omega)
  have h2 := Int.lt_mul_ediv_self_add (x := x + ((d / 2 : Nat) : Int)) hpos
  have h3 : ((d / 2 : Nat) : Int) * 2 = d := by omega
  simp only [roundDiv]
  constructor <;> nlinarith

/-- A sample that is the marker counts as silence, any other as itself. -/
theorem orSilence_ne_marker (x : Int) : orSilence x ≠ Config.emptyMarker := by
  simp only [orSilence]; split
  · simp [Config.emptyMarker]
  · assumption

/-- The applied factor moves by at most 16 and never past its factor. -/
theorem glide_between (ce factor : Nat) :
    min ce factor ≤ glide ce factor ∧ glide ce factor ≤ max ce factor ∧ glide ce factor ≤ ce + 16 ∧
      ce ≤ glide ce factor + 16 := by
  simp only [glide]; split
  · omega
  · split <;> omega

/-- Every compensation factor lies in the range of Ce. -/
theorem compensation_range (k : Nat) : 16384 ≤ Config.compensation k ∧ Config.compensation k ≤ 65226 := by
  unfold Config.compensation; split <;> omega

/-- One step of the duck envelope moves toward its target, by at most the attack or the release, and never past it. -/
theorem duckStep_between (target attack release d : Nat) :
    min d target ≤ duckStep target attack release d ∧ duckStep target attack release d ≤ max d target ∧
      duckStep target attack release d ≤ d + release ∧ d ≤ duckStep target attack release d + attack := by
  simp only [duckStep]; split
  · omega
  · split <;> omega

/-- The zone output is clamped, whatever its terms. -/
theorem zoneOutput_range (p s a : Int) (d tk ce : Nat) (m : Int) :
    -8388607 ≤ zoneOutput p s a d tk ce m ∧ zoneOutput p s a d tk ce m ≤ 8388607 := by
  simp only [zoneOutput]; exact saturate_range _

end Sys2Proof.Machine
end

