-- ==== Sys2Proof/Laws/Period.lean ====
section
/-! SUPPORT. What a cycle period leaves of its computation: nothing after the duck step, the glide and the computation
itself changes the mix engine, the input samples, an applied factor or the computation. -/

namespace Sys2Proof.Machine

/-- The mix engine, the applied factors, the input samples and the computations of t are those of s. -/
structure ComputedAlike (s t : State) : Prop where
  mix : t.mix = s.mix
  ce : ∀ z : Fin 24, (t.trackers[z]).ce = (s.trackers[z]).ce
  samples : t.ports.samples = s.ports.samples
  recent : t.recent = s.recent
  older : t.older = s.older

theorem ComputedAlike.refl (s : State) : ComputedAlike s s := ⟨rfl, fun _ => rfl, rfl, rfl, rfl⟩

theorem ComputedAlike.trans {s t u : State} (h : ComputedAlike s t) (k : ComputedAlike t u) : ComputedAlike s u :=
  ⟨k.mix.trans h.mix, fun z => (k.ce z).trans (h.ce z), k.samples.trans h.samples, k.recent.trans h.recent,
    k.older.trans h.older⟩

/-- Trackers that are the same have the same factors. -/
theorem ComputedAlike.of_eq {s t : State} (mix : t.mix = s.mix) (trackers : t.trackers = s.trackers)
    (samples : t.ports.samples = s.ports.samples) (recent : t.recent = s.recent) (older : t.older = s.older) :
    ComputedAlike s t :=
  ⟨mix, fun z => by rw [trackers], samples, recent, older⟩

/-- A relation that one step keeps, a step for each index keeps. -/
theorem forEach_keeps {R : State → State → Prop} (refl : ∀ s, R s s) (trans : ∀ {s t u}, R s t → R t u → R s u)
    (n : Nat) (f : Fin n → State → State) (h : ∀ i s, R s (f i s)) (s : State) : R s (forEach n f s) := by
  unfold forEach
  generalize indices n = l
  induction l generalizing s with
  | nil => exact refl s
  | cons i l ih => exact trans (h i s) (ih _)

theorem post_computedAlike (s : State) (k : EventKind) (w : Word16) (d : BitVec 4) : ComputedAlike s (s.post k w d) :=
  (.of_eq rfl rfl rfl rfl rfl)

theorem playerStep_computedAlike (s : State) (p : Fin 4) : ComputedAlike s (s.playerStep p) := by
  unfold State.playerStep
  simp only
  split <;> split <;> exact .of_eq rfl rfl rfl rfl rfl

theorem feedRecovery_computedAlike (s : State) (f : Fin 4) : ComputedAlike s (s.feedRecovery f) := by
  unfold State.feedRecovery
  simp only
  split
  · split
    · exact .of_eq rfl rfl rfl rfl rfl
    · split <;> exact .of_eq rfl rfl rfl rfl rfl
  · exact .refl s

theorem measure_ce (t : ZoneTracker) (v : Vector Int 32) (a b : Option (Fin 32)) (f : Bool) :
    (t.measure v a b f).ce = t.ce := by
  unfold ZoneTracker.measure; split <;> rfl

theorem measureAll_computedAlike (s : State) : ComputedAlike s s.measureAll := by
  refine ⟨?_, fun z => ?_, ?_, ?_, ?_⟩ <;> simp [State.measureAll, measure_ce]

theorem captureSample_computedAlike (s : State) : ComputedAlike s s.captureSample := .of_eq rfl rfl rfl rfl rfl

theorem generators_computedAlike (s : State) : ComputedAlike s (s.setAlarm s.alarm.advanceAll).feedTick := by
  refine .of_eq ?_ ?_ ?_ ?_ ?_ <;> simp [State.feedTick]

theorem advance_computedAlike (s : State) : ComputedAlike s s.advance := by
  have players (s : State) : ComputedAlike s (forEach 4 (fun p s => s.playerStep p) s) :=
    forEach_keeps ComputedAlike.refl ComputedAlike.trans 4 _ (fun p s => playerStep_computedAlike s p) s
  have feeds (s : State) : ComputedAlike s (forEach 4 (fun f s => s.feedRecovery f) s) :=
    forEach_keeps ComputedAlike.refl ComputedAlike.trans 4 _ (fun f s => feedRecovery_computedAlike s f) s
  have h := ((players s).trans (generators_computedAlike _)).trans (feeds _)
  exact (h.trans (captureSample_computedAlike _)).trans (measureAll_computedAlike _)

theorem tick_computedAlike (s : State) (contacts : BitVec 4) : ComputedAlike s (s.tick contacts) := by
  refine .of_eq ?_ ?_ ?_ ?_ ?_ <;>
    simp [State.tick, State.burstTick, State.alarmTick, State.icomTick, State.pageTick]

theorem finish_computedAlike (s : State) : ComputedAlike s s.finish := by
  unfold State.finish State.actOnHanded
  split
  · exact .of_eq rfl rfl rfl rfl rfl
  · have h := handScheduler_pagesFrame ((s.setScene s.scene.advance).setScene
      { (s.setScene s.scene.advance).scene with handed := 0 })
    refine ⟨h.mix, fun z => ?_, ?_, h.recent, h.older⟩
    · exact congrArg (fun v : Vector ZoneTracker 24 => (v[z]).ce) h.trackers
    · exact congrArg (·.samples) h.ports

/-- After a cycle period the most recent computation is the one formed from the state that its period prepared, the
one before it is the older, and the mix engine, the applied factors and the input samples are those it used (R2). -/
theorem cyclePeriod_computed (frame : Vector RawSample 32) (contacts : BitVec 4) (s : State) :
    let c := s.begun.prepare frame
    let t := cyclePeriod frame contacts s
    t.recent = c.compute ∧ t.older = c.recent ∧ t.mix = c.mix ∧ t.ports.samples = c.ports.samples ∧
      ∀ z : Fin 24, (t.trackers[z]).ce = (c.trackers[z]).ce := by
  intro c t
  have h : ComputedAlike (c.send c.compute) t :=
    ((advance_computedAlike _).trans (tick_computedAlike _ contacts)).trans (finish_computedAlike _)
  have k : (c.send c.compute).recent = c.compute ∧ (c.send c.compute).older = c.recent ∧
      (c.send c.compute).mix = c.mix ∧ (c.send c.compute).ports.samples = c.ports.samples ∧
      (c.send c.compute).trackers = c.trackers := by
    unfold State.send State.countGenerated
    refine ⟨?_, ?_, ?_, ?_, ?_⟩ <;> split <;> simp [State.sendCycle, State.sendFrame, State.setSamples]
  exact ⟨h.recent.trans k.1, h.older.trans k.2.1, h.mix.trans k.2.2.1, h.samples.trans k.2.2.2.1,
    fun z => (h.ce z).trans (congrArg (fun v : Vector ZoneTracker 24 => (v[z]).ce) k.2.2.2.2)⟩

end Sys2Proof.Machine
end

