-- ==== Sys2Proof/Laws/Closing.lean ====
section
/-! SUPPORT. What no event of a period changes: the receiver with the cycle that has arrived, the taps, the request
buffer and the reply, the ports, the route banks and the computations. So the close of a period leaves them all. -/

namespace Sys2Proof.Machine

/-- What no event of a period changes: the receiver and the arrived cycle, the taps, the parts of control and the ports,
the banks and the computations. -/
structure EventFrame (s t : State) : Prop where
  rx : t.ring.rx = s.ring.rx
  arrived : t.ring.arrived = s.ring.arrived
  address : t.ring.address = s.ring.address
  cycleNumber : t.ring.cycleNumber = s.ring.cycleNumber
  taps : t.ring.taps = s.ring.taps
  forward : t.ring.forward = { s.ring.forward with
    alertFree := t.ring.forward.alertFree
    cycle := { s.ring.forward.cycle with alert := t.ring.forward.cycle.alert } }
  buffer : t.ctl.buffer = s.ctl.buffer
  reply : t.ctl.reply = s.ctl.reply
  ports : t.ports = s.ports
  bankA : t.mix.bankA = s.mix.bankA
  bankB : t.mix.bankB = s.mix.bankB
  recent : t.recent = s.recent
  older : t.older = s.older
  pending : t.pending = s.pending

theorem EventFrame.refl (s : State) : EventFrame s s := by constructor <;> rfl
theorem EventFrame.trans {s t u : State} (h : EventFrame s t) (k : EventFrame t u) : EventFrame s u where
  rx := k.rx.trans h.rx
  arrived := k.arrived.trans h.arrived
  address := k.address.trans h.address
  cycleNumber := k.cycleNumber.trans h.cycleNumber
  taps := k.taps.trans h.taps
  forward := by rw [k.forward, h.forward]
  buffer := k.buffer.trans h.buffer
  reply := k.reply.trans h.reply
  ports := k.ports.trans h.ports
  bankA := k.bankA.trans h.bankA
  bankB := k.bankB.trans h.bankB
  recent := k.recent.trans h.recent
  older := k.older.trans h.older
  pending := k.pending.trans h.pending

theorem PagesFrame.kept {s t : State} (h : PagesFrame s t) : EventFrame s t := by
  constructor <;> first
    | rw [h.ring] | exact h.buffer | exact h.reply | exact h.ports | rw [h.mix] | exact h.recent | exact h.older
    | exact h.pending

theorem foldl_keeps {α : Type} {R : State → State → Prop} (refl : ∀ s, R s s)
    (trans : ∀ {s t u}, R s t → R t u → R s u) (f : State → α → State) (h : ∀ s x, R s (f s x)) (l : List α)
    (s : State) : R s (l.foldl f s) := by
  induction l generalizing s with
  | nil => exact refl s
  | cons x l ih => exact trans (h s x) (ih _)

/-- An event of each index of a table. -/
theorem each_kept (n : Nat) (f : Fin n → State → State) (h : ∀ i s, EventFrame s (f i s)) (s : State) :
    EventFrame s (forEach n f s) := forEach_keeps EventFrame.refl EventFrame.trans n f h s

/-! ### One operation after another -/

theorem post_kept (s : State) (k : EventKind) (w : Word16) (d : BitVec 4) : EventFrame s (s.post k w d) := by
  constructor <;> first | rfl | simp

theorem handIntercom_kept (s : State) : EventFrame s s.handIntercom := by
  have r := (handIntercom_holdsOnly s).rest
  constructor <;> rw [r]

theorem recoverage_kept (s : State) (a : Alarm) : EventFrame s (s.recoverage a) := by
  unfold State.recoverage
  have h : EventFrame s (s.setAlarm s.alarm.recompute) := by constructor <;> rfl
  simp only
  split
  · exact h
  · exact (h.trans (handScheduler_pagesFrame _).kept).trans (handIntercom_kept _)

theorem setAlarm_kept (s : State) (a : Alarm) : EventFrame s (s.setAlarm a) := by constructor <;> rfl
theorem placeRecord_kept (s : State) (e : Fin 8) (r : AlarmRec) (b : Bool) : EventFrame s (s.placeRecord e r b) := by
  constructor <;> rfl
theorem setIcom_kept (s : State) (a : Intercom) : EventFrame s (s.setIcom a) := by constructor <;> rfl
theorem setClips_kept (s : State) (a : Clips) : EventFrame s (s.setClips a) := by constructor <;> rfl
theorem setPages_kept (s : State) (a : Pages) : EventFrame s (s.setPages a) := by constructor <;> rfl
theorem setFeeds_kept (s : State) (a : Vector Feed 4) : EventFrame s (s.setFeeds a) := by constructor <;> rfl
theorem setLines_kept (s : State) (a : Lines) : EventFrame s (s.setLines a) := by constructor <;> rfl
theorem setScene_kept (s : State) (a : Scene) : EventFrame s (s.setScene a) := by constructor <;> rfl
theorem setTrackers_kept (s : State) (a : Vector ZoneTracker 24) : EventFrame s (s.setTrackers a) := by
  constructor <;> rfl

/-! ### The alarm engine -/

theorem startRecord_kept (s : State) (e : Fin 8) (r : AlarmRec) : EventFrame s (s.startRecord e r) := by
  unfold State.startRecord
  simp only
  split
  · exact (((setAlarm_kept _ _).trans (post_kept _ _ _ _)).trans (placeRecord_kept _ _ _ _)).trans
      (recoverage_kept _ _)
  · exact ((setAlarm_kept _ _).trans (post_kept _ _ _ _)).trans (recoverage_kept _ _)

theorem endRecord_kept (s : State) (e : Fin 8) (c : BitVec 4) : EventFrame s (s.endRecord e c) := by
  unfold State.endRecord
  split
  · simp only
    split
    · split
      · exact (((setAlarm_kept _ _).trans (post_kept _ _ _ _)).trans (placeRecord_kept _ _ _ _)).trans
          (recoverage_kept _ _)
      · exact (((setAlarm_kept _ _).trans (post_kept _ _ _ _))).trans (recoverage_kept _ _)
    · split
      · exact (((setAlarm_kept _ _).trans (post_kept _ _ _ _)).trans (placeRecord_kept _ _ _ _))
      · exact (((setAlarm_kept _ _).trans (post_kept _ _ _ _)))
  · exact .refl _

/-! ### The intercom switch -/

theorem endCall_kept (s : State) (id : CallId) (c : BitVec 4) : EventFrame s (s.endCall id c) := by
  unfold State.endCall
  split
  · refine EventFrame.trans (t := List.foldl _ _ _) ?_ (post_kept _ _ _ _)
    refine EventFrame.trans (t := (s.setIcom _).removeTrunkInsert id) ?_
      (foldl_keeps EventFrame.refl EventFrame.trans _ (fun s p => ?_) _ _)
    · constructor <;> rfl
    · split
      · exact setIcom_kept _ _
      · exact .refl _
  · exact .refl _

theorem createCall_kept (s : State) (p : CallParties) (b : Bool) (w : Word16) : EventFrame s (s.createCall p b w) := by
  unfold State.createCall
  exact (setIcom_kept _ _).trans (foldl_keeps EventFrame.refl EventFrame.trans _ (fun s p => setIcom_kept _ _) _ _)

theorem endPage_kept (s : State) (id : PageId) (c : BitVec 4) : EventFrame s (s.endPage id c) :=
  (endPage_pagesFrame s id c).kept

theorem enqueue_kept (s : State) (p : Page) : EventFrame s (s.enqueue p) := by constructor <;> rfl

theorem onKey_kept (s : State) (p : Fin 32) (k : Key) (act : Station → State → State)
    (h : ∀ e s, EventFrame s (act e s)) : EventFrame s (s.onKey p k act) := by
  unfold State.onKey
  split
  · split
    · dsimp only
      split
      · exact (setIcom_kept _ _).trans (h _ _)
      · exact setIcom_kept _ _
    · exact .refl _
  · exact .refl _

theorem createTrunkOut_kept (s : State) (p : Fin 32) (n : DirNumber) (b : Bool) :
    EventFrame s (s.createTrunkOut p n b) :=
  (createCall_kept _ _ _ _).trans (post_kept _ _ _ _)

theorem handleKey_kept (p : Fin 32) (k : Key) (s : State) : EventFrame s (handleKey p k s) := by
  unfold handleKey
  split
  · refine onKey_kept _ _ _ _ (fun e s => ?_)
    split
    · unfold State.dial
      repeat' split
      all_goals first | exact setIcom_kept _ _ | exact createCall_kept _ _ _ _ | exact createTrunkOut_kept _ _ _ _
    · exact .refl _
  · refine onKey_kept _ _ _ _ (fun e s => ?_)
    split
    · unfold State.answerCall
      split
      · exact (setIcom_kept _ _).trans (setIcom_kept _ _)
      · exact ((setIcom_kept _ _).trans (setIcom_kept _ _)).trans (post_kept _ _ _ _)
    · exact .refl _
  · refine onKey_kept _ _ _ _ (fun e s => ?_)
    split
    · exact .refl _
    · exact setIcom_kept _ _
    · exact endCall_kept _ _ _
    · exact .refl _
  · refine onKey_kept _ _ _ _ (fun e s => ?_)
    split
    · unfold State.dialEmergency
      repeat' split
      all_goals first
        | exact setIcom_kept _ _
        | exact createCall_kept _ _ _ _
        | exact createTrunkOut_kept _ _ _ _
        | exact (endCall_kept _ _ _).trans (createCall_kept _ _ _ _)
    · exact .refl _
  · refine onKey_kept _ _ _ _ (fun e s => ?_)
    split
    · exact .refl _
    · split
      · split
        · exact setIcom_kept _ _
        · exact .refl _
      · exact (setIcom_kept _ _).trans (enqueue_kept _ _)
  · refine onKey_kept _ _ _ _ (fun e s => ?_)
    split
    · exact .refl _
    · unfold State.releaseStationPage
      split
      · exact (setIcom_kept _ _).trans (endPage_kept _ _ _)
      · exact setIcom_kept _ _
  all_goals
    refine onKey_kept _ _ _ _ (fun e s => ?_)
    split
    · exact .refl _
    · constructor <;> rfl
    · exact .refl _

theorem stationLost_kept (p : Fin 32) (s : State) : EventFrame s (stationLost p s) := by
  unfold stationLost
  dsimp only
  split
  · have h1 : EventFrame s ((s.setIcom { s.icom with
        presence := put s.icom.presence p { (s.icom.presence[p]) with present := false } }).post .stationLost
        (BitVec.ofNat 16 p.val) 0) := (setIcom_kept _ _).trans (post_kept _ _ _ _)
    cases s.callOf p with
    | none =>
      dsimp only
      split
      · unfold State.loseStationPage
        split
        · exact (h1.trans (setIcom_kept _ _)).trans (endPage_kept _ _ _)
        · exact h1.trans (setIcom_kept _ _)
      · exact h1
    | some c =>
      dsimp only
      have h2 := h1.trans (endCall_kept _ c.id callStationLost)
      split
      · unfold State.loseStationPage
        split
        · exact (h2.trans (setIcom_kept _ _)).trans (endPage_kept _ _ _)
        · exact h2.trans (setIcom_kept _ _)
      · exact h2
  · exact .refl _

theorem slotOver_kept (s : State) : EventFrame s s.slotOver := by
  unfold State.slotOver pollMiss
  dsimp only
  repeat' split
  all_goals first | exact .refl _ | exact setIcom_kept _ _

theorem leftKeys_kept (s : State) : EventFrame s s.leftKeys :=
  foldl_keeps EventFrame.refl EventFrame.trans (fun s (x : Fin 32 × Key) => handleKey x.1 x.2 s)
    (fun s x => handleKey_kept x.1 x.2 s) _ _

theorem closeCalls_kept (s : State) : EventFrame s s.closeCalls := by
  unfold State.closeCalls
  refine EventFrame.trans (t := forEach 32 cueTimerExpiry (forEach 32 stationLost s.slotOver).leftKeys) ?_
    (foldl_keeps EventFrame.refl EventFrame.trans _ (fun s id => ?_) _ _)
  · refine (((slotOver_kept s).trans (each_kept 32 _ (fun p s => stationLost_kept p s) _)).trans (leftKeys_kept _)).trans
      (each_kept 32 _ (fun p s => ?_) _)
    unfold cueTimerExpiry
    split
    · exact setIcom_kept _ _
    · exact .refl _
  · refine EventFrame.trans (t := callNoAnswer id s) ?_ ?_
    · unfold callNoAnswer
      repeat' split
      all_goals first | exact .refl _ | exact endCall_kept _ _ _
    · unfold callHeldTooLong
      repeat' split
      all_goals first | exact .refl _ | exact endCall_kept _ _ _

theorem closeAlarms_kept (s : State) : EventFrame s s.closeAlarms := by
  unfold State.closeAlarms
  refine ((((each_kept 4 _ (fun k s => ?_) _).trans (each_kept 4 _ (fun k s => ?_) _)).trans
    (each_kept 8 _ (fun k s => ?_) _)).trans (each_kept 8 _ (fun k s => ?_) _)).trans (each_kept 4 _ (fun k s => ?_) _)
  · unfold contactActivate
    dsimp only
    split
    · exact (setAlarm_kept _ _).trans (startRecord_kept _ _ _)
    · exact .refl _
  · unfold contactClear
    dsimp only
    split
    · exact (setAlarm_kept _ _).trans (endRecord_kept _ _ _)
    · exact .refl _
  · unfold broadcastRefresh
    repeat' split
    all_goals first | exact .refl _ | exact (setAlarm_kept _ _).trans (placeRecord_kept _ _ _ _)
  · unfold notConfirmed
    repeat' split
    all_goals first | exact .refl _ | exact endRecord_kept _ _ _
  · unfold generatorStepEnd
    repeat' split
    all_goals first | exact .refl _ | exact setAlarm_kept _ _

/-! ### Feed pairs, clips, pages and the rest -/

theorem changeFeed_kept (s : State) (f : Fin 4) (x : FeedState) : EventFrame s (s.changeFeed f x) :=
  (setFeeds_kept _ _).trans (post_kept _ _ _ _)

theorem closeFeeds_kept (s : State) : EventFrame s s.closeFeeds := by
  unfold State.closeFeeds
  refine EventFrame.trans (each_kept 4
    (fun f s => mismatchBlockEnd f (feedAutoRevert f (feedBothLost f (feedChangeover f s)))) (fun f s => ?_) s) ?_
  · refine EventFrame.trans (t := feedAutoRevert f (feedBothLost f (feedChangeover f s))) ?_ ?_
    · refine EventFrame.trans (t := feedBothLost f (feedChangeover f s)) ?_ ?_
      · refine EventFrame.trans (t := feedChangeover f s) ?_ ?_
        · unfold feedChangeover
          split
          · exact changeFeed_kept _ _ _
          · exact .refl _
        · unfold feedBothLost
          dsimp only
          split
          · exact changeFeed_kept _ _ _
          · exact .refl _
      · unfold feedAutoRevert
        dsimp only
        split
        · exact changeFeed_kept _ _ _
        · exact .refl _
    · unfold mismatchBlockEnd State.setFeed
      dsimp only
      split
      · split
        · exact (setFeeds_kept _ _).trans (post_kept _ _ _ _)
        · exact setFeeds_kept _ _
      · exact .refl _
  · unfold takeDone
    split
    · exact (setScene_kept _ _).trans (post_kept _ _ _ _)
    · exact .refl _

theorem updatePage_kept (s : State) (id : PageId) (f : Page → Page) : EventFrame s (s.updatePage id f) :=
  setPages_kept _ _

theorem closeClips_kept (s : State) : EventFrame s s.closeClips := by
  unfold State.closeClips
  have h1 : EventFrame s (burstDone s) := by
    unfold burstDone
    repeat' split
    all_goals first | exact .refl _ | exact setClips_kept _ _
  have h2 (s : State) : EventFrame s (forEach 4 playerPrimed s) := each_kept 4 _ (fun p s => by
    unfold playerPrimed
    split
    · exact setClips_kept _ _
    · exact .refl _) s
  have h3 (s : State) : EventFrame s (captureDone (captureEnd (captureFull s))) := by
    refine EventFrame.trans (t := captureEnd (captureFull s)) (EventFrame.trans (t := captureFull s) ?_ ?_) ?_
    · unfold captureFull
      dsimp only
      split
      · exact setClips_kept _ _
      · exact .refl _
    · unfold captureEnd
      dsimp only
      split
      · exact setClips_kept _ _
      · exact .refl _
    · unfold captureDone
      dsimp only
      split
      · exact ((setClips_kept _ _).trans (setClips_kept _ _)).trans (post_kept _ _ _ _)
      · exact .refl _
  refine (((h1.trans (h2 _)).trans (h3 _)).trans (each_kept 4 _ (fun p s => ?_) _)).trans
    (each_kept 4 _ (fun p s => ?_) _)
  · unfold chimeEnd
    dsimp only
    split
    · split
      · split
        · exact (setClips_kept _ _).trans (updatePage_kept _ _ _)
        · exact setClips_kept _ _
      · exact setClips_kept _ _
    · exact .refl _
  · unfold sequenceEnd
    dsimp only
    split
    · split
      · split
        · unfold State.endRepeat
          split
          · exact (setClips_kept _ _).trans (endPage_kept _ _ _)
          · exact (setClips_kept _ _).trans (updatePage_kept _ _ _)
        · exact (setClips_kept _ _).trans (((freePage_pagesOnly _ _).toPagesFrame.kept.trans
            (updatePage_kept _ _ _)).trans (duePass_pagesFrame _).kept)
      · exact setClips_kept _ _
    · exact .refl _

theorem closePages_kept (s : State) : EventFrame s s.closePages := by
  unfold State.closePages
  refine EventFrame.trans (t := s.pageIds.foldl _ s)
    (foldl_keeps EventFrame.refl EventFrame.trans _ (fun s id => ?_) _ _) (settle_pagesFrame _).kept
  refine EventFrame.trans (t := pageSourceLost id (pageTimedOut id (gapEnd id s)))
    (EventFrame.trans (t := pageTimedOut id (gapEnd id s)) (EventFrame.trans (t := gapEnd id s) ?_ ?_) ?_)
    (pageExpired_pagesFrame _ _).kept
  · unfold gapEnd
    split
    · split
      · exact (((startRepeat_pagesOnly s id).trans (takeZones_pagesOnly _ _ _)).toPagesFrame.kept.trans
          (updatePage_kept _ _ _)).trans (duePasses_pagesFrame _ _).kept
      · exact .refl _
    · exact .refl _
  · unfold pageTimedOut
    repeat' split
    all_goals first | exact .refl _ | exact endPage_kept _ _ _
  · unfold pageSourceLost
    repeat' split
    all_goals first | exact .refl _ | exact endPage_kept _ _ _

theorem postLine_kept (s : State) (c : Fin 32) (e : Option LineEvent) : EventFrame s (s.postLine c e) := by
  unfold State.postLine
  split
  · exact .refl _
  · exact post_kept _ _ _ _
  · exact post_kept _ _ _ _

theorem closeRest_kept (s : State) : EventFrame s s.closeRest := by
  unfold State.closeRest
  have h1 : EventFrame s (scanStepEnd s) := by
    unfold scanStepEnd
    split
    · split
      · unfold State.classifyStep
        dsimp only
        split
        · exact setLines_kept _ _
        · exact ((setLines_kept _ _).trans (postLine_kept _ _ _)).trans (setLines_kept _ _)
      · exact .refl _
    · exact .refl _
  have h2 (s : State) : EventFrame s (scanRestEnd s) := by
    unfold scanRestEnd
    repeat' split
    all_goals first | exact .refl _ | exact setLines_kept _ _
  have h3 (s : State) : EventFrame s (forEach 24 trackerBlockEnd s) := each_kept 24 _ (fun z s => by
    unfold trackerBlockEnd
    dsimp only
    split
    · exact setTrackers_kept _ _
    · exact .refl _) s
  have h4 (s : State) : EventFrame s (forEach 64 slotClash s) := each_kept 64 _ (fun z s => by
    unfold slotClash
    split
    · split
      · refine EventFrame.trans (t := s.setRing _) ?_ (post_kept _ _ _ _)
        constructor <;> rfl
      · exact .refl _
    · exact .refl _) s
  have h5 (s : State) : EventFrame s (alertSend s) := by
    unfold alertSend
    repeat' split
    all_goals first | exact .refl _ | (constructor <;> rfl)
  exact (((h1.trans (h2 _)).trans (h3 _)).trans (h4 _)).trans (h5 _)

/-- What no event of a period changes, the close of a period leaves. -/
theorem closePeriod_kept (s : State) : EventFrame s (closePeriod s) := by
  unfold closePeriod
  have h1 (s : State) : EventFrame s s.pollCue := by
    unfold State.pollCue
    split
    · exact setIcom_kept _ _
    · exact .refl _
  have h2 (s : State) : EventFrame s s.applySettings := by
    unfold State.applySettings
    split
    · constructor <;> rfl
    · exact .refl _
  exact (((((((closeClips_kept s).trans (closeFeeds_kept _)).trans (closeAlarms_kept _)).trans (closeCalls_kept _)).trans
    (closePages_kept _)).trans (closeRest_kept _)).trans (h1 _)).trans (h2 _)

end Sys2Proof.Machine
end

