-- ==== Sys2Proof/Laws/Begin.lean ====
section
/-! SUPPORT. What each part of a cycle period leaves: its beginning (R80, R93, R131, R171), the samples it prepares,
the sending of the cycle and of the output frame (R2), the work on the computation, the timers and the next cycle to
send. -/

namespace Sys2Proof.Machine

/-! ### What a period leaves of each block -/

/-- From one state to another only players, capture, feed pairs, generators, trackers and the event list have changed, as
the work after a computation does. -/
structure AdvanceFrame (s t : State) : Prop where
  ring : t.ring = s.ring
  ports : t.ports = s.ports
  mix : t.mix = s.mix
  scene : t.scene = s.scene
  pages : t.pages = s.pages
  icom : t.icom = s.icom
  lines : t.lines = s.lines
  recent : t.recent = s.recent
  older : t.older = s.older
  pending : t.pending = s.pending
  settings : t.ctl.settings = s.ctl.settings
  incoming : t.ctl.incoming = s.ctl.incoming
  reply : t.ctl.reply = s.ctl.reply
  buffer : t.ctl.buffer = s.ctl.buffer
  records : t.alarm = { s.alarm with generators := t.alarm.generators }
  directory : t.clips.directory = s.clips.directory
  burst : t.clips.burst = s.clips.burst

theorem AdvanceFrame.refl (s : State) : AdvanceFrame s s := by constructor <;> rfl
theorem AdvanceFrame.trans {s t u : State} (h : AdvanceFrame s t) (k : AdvanceFrame t u) : AdvanceFrame s u := by
  constructor <;> first
    | exact k.ring.trans h.ring | exact k.ports.trans h.ports | exact k.mix.trans h.mix
    | exact k.scene.trans h.scene | exact k.pages.trans h.pages | exact k.icom.trans h.icom
    | exact k.lines.trans h.lines | exact k.recent.trans h.recent | exact k.older.trans h.older
    | exact k.pending.trans h.pending | exact k.settings.trans h.settings | exact k.incoming.trans h.incoming
    | exact k.reply.trans h.reply | exact k.buffer.trans h.buffer | exact k.directory.trans h.directory
    | exact k.burst.trans h.burst | skip
  rw [k.records, h.records]

theorem post_advanceFrame (s : State) (k : EventKind) (w : Word16) (d : BitVec 4) : AdvanceFrame s (s.post k w d) := by
  constructor <;> first | rfl | simp
theorem playerStep_advanceFrame (s : State) (p : Fin 4) : AdvanceFrame s (s.playerStep p) := by
  unfold State.playerStep
  simp only
  split <;> split <;> constructor <;> first | rfl | simp [State.setPlayer]
theorem feedRecovery_advanceFrame (s : State) (f : Fin 4) : AdvanceFrame s (s.feedRecovery f) := by
  unfold State.feedRecovery State.changeFeed
  simp only
  split
  · split
    · constructor <;> first | rfl | simp [State.setFeed]
    · split
      · constructor <;> first | rfl | simp [State.setFeed]
      · exact .refl _
  · exact .refl s

theorem advance_advanceFrame (s : State) : AdvanceFrame s s.advance := by
  have players (s : State) : AdvanceFrame s (forEach 4 (fun p s => s.playerStep p) s) :=
    forEach_keeps AdvanceFrame.refl AdvanceFrame.trans 4 _ (fun p s => playerStep_advanceFrame s p) s
  have feeds (s : State) : AdvanceFrame s (forEach 4 (fun f s => s.feedRecovery f) s) :=
    forEach_keeps AdvanceFrame.refl AdvanceFrame.trans 4 _ (fun f s => feedRecovery_advanceFrame s f) s
  have gens (s : State) : AdvanceFrame s (s.setAlarm s.alarm.advanceAll).feedTick := by
    constructor <;> rfl
  have rest (s : State) : AdvanceFrame s s.captureSample.measureAll := by constructor <;> rfl
  exact (((players s).trans (gens _)).trans (feeds _)).trans (rest _)

/-- The timers of a period count in the intercom, the pages, the alarms, the scanner and the burst alone. -/
theorem tick_blocks (s : State) (contacts : BitVec 4) :
    (s.tick contacts).ports = s.ports ∧ (s.tick contacts).lines = s.lines.tick ∧
    (s.tick contacts).icom = s.icomTick.icom ∧ (s.tick contacts).scene = s.scene ∧ (s.tick contacts).ring = s.ring ∧
    (s.tick contacts).ctl = s.ctl ∧ (s.tick contacts).pending = s.pending ∧
    (s.tick contacts).pages = s.pageTick.pages ∧ (s.tick contacts).alarm = (s.alarmTick contacts).alarm ∧
    (s.tick contacts).clips =
      { s.clips with burst := s.clips.burst.map (fun b => { b with elapsed := b.elapsed + 1 }) } ∧
    (s.tick contacts).feeds = s.feeds ∧ (s.tick contacts).trackers = s.trackers ∧
    (s.tick contacts).mix = s.mix ∧ (s.tick contacts).recent = s.recent := by
  simp [State.tick, State.burstTick, State.alarmTick, State.icomTick, State.pageTick, State.heard]

/-- Sending changes the output frame, the cycle sent and the computations alone (R2). -/
theorem send_blocks (s : State) (k : Computation) :
    (s.send k).ports = (s.sendFrame s.older).ports ∧ (s.send k).lines = s.lines ∧ (s.send k).icom = s.icom ∧
    (s.send k).scene = s.scene ∧ (s.send k).ctl = s.ctl ∧ (s.send k).pending = s.pending ∧ (s.send k).pages = s.pages ∧
    (s.send k).alarm = s.alarm ∧ (s.send k).clips = s.clips ∧ (s.send k).feeds = s.feeds ∧
    (s.send k).trackers = s.trackers ∧ (s.send k).ring.taps = s.ring.taps ∧ (s.send k).ring.rx = s.ring.rx := by
  unfold State.send State.countGenerated
  split <;> simp [State.sendCycle, State.sendFrame, State.setSamples]

theorem advance_handed (c : Scene) : c.advance.handed = c.handed := by
  unfold Scene.advance
  split
  · split <;> rfl
  · split <;> rfl
  · rfl

/-- The end of a period makes the next cycle to send and hands the zones noted to the scheduler. -/
theorem finish_blocks (s : State) :
    s.finish.ports = s.ports ∧ s.finish.lines = s.lines ∧ s.finish.icom = s.icom ∧
    s.finish.scene = { s.scene.advance with handed := 0 } ∧ s.finish.ring = s.nextForward.ring ∧
    s.finish.ctl.settings = s.ctl.settings ∧ s.finish.ctl.incoming = s.ctl.incoming ∧
    s.finish.ctl.reply = s.ctl.reply ∧ s.finish.ctl.buffer = s.ctl.buffer ∧ s.finish.pending = s.pending ∧
    s.finish.alarm = s.alarm ∧ s.finish.feeds = s.feeds ∧ s.finish.trackers = s.trackers ∧
    s.finish.clips.capture = s.clips.capture ∧ s.finish.clips.directory = s.clips.directory ∧
    s.ctl.events <+: s.finish.ctl.events ∧
    (s.scene.handed = 0 → s.finish.pages = s.pages ∧ s.finish.clips = s.clips ∧ s.finish.ctl = s.ctl) := by
  unfold State.finish State.actOnHanded
  split
  · rename_i h0
    have h0 : s.scene.advance.handed = 0 := h0
    refine ⟨rfl, rfl, rfl, ?_, rfl, rfl, rfl, rfl, rfl, rfl, rfl, rfl, rfl, rfl, rfl, List.prefix_refl _,
      fun _ => ⟨rfl, rfl, rfl⟩⟩
    show s.scene.advance = _
    rw [← h0]
  · rename_i h0
    have k := handScheduler_pagesFrame ((s.setScene s.scene.advance).setScene
      { (s.setScene s.scene.advance).scene with handed := 0 })
    refine ⟨k.ports, k.lines, k.icom, k.scene, ?_, k.settings, k.incoming, k.reply, k.buffer, k.pending,
      k.alarm, k.feeds, k.trackers, k.capture, k.directory, k.events, fun h => ?_⟩
    · simp only [State.nextForward, State.setRing_ring, k.ring, State.setScene_ring]
    · exact absurd ((advance_handed _).trans h) h0

/-! ### The beginning of a period -/

theorem idlePlayers_kept (s : State) : EventFrame s (forEach 4 (fun p s => s.idlePlayer p) s) :=
  each_kept 4 _ (fun p s => by
  unfold State.idlePlayer
  split
  · constructor <;> rfl
  · exact .refl _) s

theorem takeStart_kept (s : State) : EventFrame s (takeStart s) := by
  unfold takeStart
  dsimp only
  split
  · split
    · exact (setScene_kept _ _).trans ((setScene_kept _ _).trans (post_kept _ _ _ _))
    · exact setScene_kept _ _
  · exact .refl _

/-- A bank switch changes the scene and the event list alone (R80). -/
theorem takeStart_eq (s : State) : takeStart s = (s.setScene (takeStart s).scene).setCtl (takeStart s).ctl := by
  unfold takeStart State.completeTake
  dsimp only
  split
  · split <;> rfl
  · rfl

/-- The scanner's choice changes the line supervision alone (R171). -/
theorem scanChoose_eq (s : State) : s.scanChoose = s.setLines s.scanChoose.lines := by
  unfold State.scanChoose
  split <;> rfl

/-- A poll's start changes the intercom alone (R131). -/
theorem pollStart_eq (s : State) : s.pollStart = s.setIcom s.pollStart.icom := by
  unfold State.pollStart
  dsimp only
  split <;> rfl

/-- What a period's beginning leaves of each block. -/
theorem begin_blocks (u : State) (b : State)
    (h : b = ((burstGrant (takeStart u).scanChoose).pollStart).readTaps) :
    b.ring = u.ring.tapped ∧ b.scene = (takeStart u).scene ∧ b.clips = u.clips.grant ∧
    b.lines = (u.scanChoose).lines ∧
    b.ports = u.ports ∧ b.mix = u.mix ∧ b.feeds = u.feeds ∧ b.pages = u.pages ∧ b.alarm = u.alarm ∧
    b.trackers = u.trackers ∧ b.ctl = (takeStart u).ctl ∧
    b.recent = u.recent ∧ b.older = u.older ∧ b.pending = u.pending := by
  subst h
  rw [pollStart_eq, scanChoose_eq (takeStart u), takeStart_eq]
  have e : ((u.setScene (takeStart u).scene).setCtl (takeStart u).ctl).scanChoose.lines = u.scanChoose.lines := by
    unfold State.scanChoose
    simp only [State.setCtl_lines, State.setScene_lines]
    have : ((u.setScene (takeStart u).scene).setCtl (takeStart u).ctl).measurable = u.measurable := rfl
    rw [this]
    split <;> rfl
  rw [e]
  refine ⟨rfl, rfl, rfl, rfl, rfl, rfl, rfl, rfl, rfl, rfl, rfl, rfl, rfl, rfl⟩

/-- What a period's beginning leaves of the intercom: the poll of slot time 0 (R131). -/
theorem begin_icom (u : State) (b : State)
    (h : b = ((burstGrant (takeStart u).scanChoose).pollStart).readTaps) :
    b.icom.calls = u.icom.calls ∧ b.icom.table = u.icom.table ∧ b.icom.presence = u.icom.presence ∧
    b.icom.keys = u.icom.keys ∧ b.icom.slotTime = u.icom.slotTime ∧
    (u.icom.slotTime = 0 →
        b.icom.awaiting = some u.icom.nextPort ∧ b.icom.poll.map (·.1) = some u.icom.nextPort ∧
        b.icom.nextPort.val = (u.icom.nextPort.val + 1) % 32) ∧
    (u.icom.slotTime ≠ 0 → b.icom = u.icom) := by
  subst h
  have e : (burstGrant (takeStart u).scanChoose).icom = u.icom := by
    rw [scanChoose_eq (takeStart u), takeStart_eq]; rfl
  have k : ((burstGrant (takeStart u).scanChoose).pollStart).readTaps.icom =
      ((burstGrant (takeStart u).scanChoose).pollStart).icom := rfl
  rw [k]
  generalize burstGrant (takeStart u).scanChoose = v at e
  unfold State.pollStart
  rw [← e]
  by_cases h : v.icom.slotTime = 0
  · simp only [h, if_true, State.setIcom_icom]
    refine ⟨trivial, trivial, trivial, trivial, trivial, fun _ => ⟨trivial, rfl, ?_⟩, fun h => absurd rfl h⟩
    split
    · dsimp only; omega
    · have := v.icom.nextPort.isLt
      have : v.icom.nextPort.val = 31 := by omega
      simp [this]
  · simp [h]

/-- From one state to another only players and inserts' clash counts have changed. -/
structure IdleFrame (s t : State) : Prop where
  rest : t = { s with ring := { s.ring with inserts := t.ring.inserts },
                      clips := { s.clips with players := t.clips.players } }

theorem IdleFrame.refl (s : State) : IdleFrame s s := ⟨rfl⟩
theorem IdleFrame.trans {s t u : State} (h : IdleFrame s t) (k : IdleFrame t u) : IdleFrame s u := by
  constructor
  have h1 := h.rest
  have h2 := k.rest
  rw [h1] at h2
  exact h2

theorem idlePlayer_idle (s : State) (p : Fin 4) : IdleFrame s (s.idlePlayer p) := by
  unfold State.idlePlayer
  split
  · exact ⟨rfl⟩
  · exact .refl _

theorem idlePlayers_idle (s : State) : IdleFrame s (forEach 4 (fun p s => s.idlePlayer p) s) :=
  forEach_keeps IdleFrame.refl IdleFrame.trans 4 _ (fun p s => idlePlayer_idle s p) s

theorem idlePlayer_players (s : State) (p q : Fin 4) : ((s.idlePlayer p).clips.players[q]) =
    if q = p ∧ (s.clips.players[q]).releasing = true then Player.idle else s.clips.players[q] := by
  unfold State.idlePlayer
  split
  · rename_i h
    simp only [State.setPlayer, State.endActivation, State.setRing_clips, State.setClips_clips, put_get]
    by_cases hq : q = p
    · subst hq; rw [if_pos rfl, if_pos ⟨rfl, h⟩]
    · rw [if_neg hq, if_neg (fun k => hq k.1)]
  · rename_i h
    exact (if_neg (fun k : q = p ∧ _ => h (k.1 ▸ k.2))).symm

set_option linter.unusedSimpArgs false in
/-- A releasing player is IDLE in the period, and every other player is as it was (R104). -/
theorem idlePlayers_players (s : State) (q : Fin 4) : ((forEach 4 (fun p s => s.idlePlayer p) s).clips.players[q]) =
    if (s.clips.players[q]).releasing = true then Player.idle else s.clips.players[q] := by
  have hi : indices 4 = [0, 1, 2, 3] := by decide
  have hr : Player.idle.releasing = false := rfl
  unfold forEach
  rw [hi]
  simp only [List.foldl_cons, List.foldl_nil, idlePlayer_players]
  have : q = 0 ∨ q = 1 ∨ q = 2 ∨ q = 3 := by omega
  by_cases h : (s.clips.players[q]).releasing = true
  · rcases this with rfl | rfl | rfl | rfl <;> simp [h, hr]
  · rcases this with rfl | rfl | rfl | rfl <;> simp [h]

/-! ### The computation and the cycle sent -/

theorem begun_kept (s : State) :
    let u := if s.ring.arrived.isSome then s else closePeriod s
    EventFrame s u := by
  intro u
  show EventFrame s (if s.ring.arrived.isSome then s else closePeriod s)
  split
  · exact .refl s
  · exact closePeriod_kept s

/-- A period begins from the close of the period before it. -/
theorem begun_def (s : State) (u : State) (hu : u = if s.ring.arrived.isSome then s else closePeriod s) :
  s.begun = ((burstGrant (takeStart (forEach 4 (fun p s => s.idlePlayer p) u)).scanChoose).pollStart).readTaps := by
  subst hu; rfl

theorem cyclePeriod_def (frame : Vector RawSample 32) (contacts : BitVec 4) (s b c : State) (hb : s.begun = b)
    (hc : b.prepare frame = c) :
    cyclePeriod frame contacts s = (((c.send c.compute).advance).tick contacts).finish := by
  subst hb hc; unfold cyclePeriod; rfl

/-- Preparing changes the input samples, the levels, the applied factors and the duckers alone. -/
theorem prepare_blocks (b : State) (frame : Vector RawSample 32) : let c := b.prepare frame
   c.lines = b.lines ∧ c.ring = b.ring ∧ c.ctl = b.ctl ∧ c.pending = b.pending ∧
      c.older = b.older ∧ c.recent = b.recent ∧ c.mix.bankA = b.mix.bankA ∧ c.mix.bankB = b.mix.bankB ∧
      c.ports = { b.ports with samples := c.ports.samples } ∧
      c.ports.samples = mapTable (fun i r => inputStage b.ports.inFormat r.trim frame[i]) b.ports.inputs := by
  simp only [State.prepare, State.takeInputs, State.glideAll, State.duckAll, State.setMix_lines,
    State.setMix_ring, State.setMix_ctl, State.setMix_pending, State.setMix_older, State.setMix_recent,
    State.setMix_mix, State.setMix_ports, State.setTrackers_lines, State.setTrackers_ring, State.setTrackers_ctl,
    State.setTrackers_pending, State.setTrackers_older, State.setTrackers_recent, State.setTrackers_mix,
    State.setTrackers_ports, State.setPorts_lines, State.setPorts_ring, State.setPorts_ctl, State.setPorts_pending,
    State.setPorts_older, State.setPorts_recent, State.setPorts_mix, State.setPorts_ports, and_self]

/-- What sending leaves of the ring: the cycle sent, with this node's inserts (R2, R15), and a node in HUNT's cycle
number (R8). -/
theorem send_ring (c : State) (k : Computation) : (c.send k).ring = { c.ring with
      sent := some { c.ring.forward.cycle with slots := c.insertedSlots c.ring.forward.cycle.slots c.older }
      cycleNumber := if c.ring.forward.generated = true ∧ c.ring.rx = .hunt then c.ring.forward.cycle.number
        else c.ring.cycleNumber } := by
  unfold State.send State.countGenerated
  have h : ((c.sendFrame c.older).sendCycle c.older).ring = { c.ring with
      sent := some { c.ring.forward.cycle with slots := c.insertedSlots c.ring.forward.cycle.slots c.older } } := by
    have i (s : State) (x : Ports) (v : Vector RawSample 64) (k : Computation) :
      (s.setPorts x).insertedSlots v k = s.insertedSlots v k := by simp only [State.insertedSlots, State.setPorts_ring]
    simp only [State.sendCycle, State.sendFrame, State.setRing_ring, State.setPorts_ring, i]
  have e (s : State) (x y : Computation) : (s.setSamples x y).ring = s.ring := rfl
  rw [e]
  generalize ((c.sendFrame c.older).sendCycle c.older) = v at h ⊢
  rw [apply_ite State.ring, State.setRing_ring, h]
  split <;> rfl

theorem compute_inputs (c : State) : c.compute.inputs = c.ports.samples := by unfold State.compute; rfl

/-- A slot that no insert names is sent as it stands. -/
theorem insertedSlots_other (l : List Insert) (v : Vector RawSample 64) (k : Computation) (n : Fin 64)
    (h : ∀ i ∈ l, i.slot ≠ n) :
    (l.foldl (fun v i => put v i.slot (rawOf (k.insertSample i.source))) v)[n] = v[n] := by
  induction l generalizing v with
  | nil => rfl
  | cons x l ih =>
    rw [List.foldl_cons, ih _ (fun i hi => h i (List.mem_cons_of_mem _ hi))]
    exact put_get_ne _ _ _ _ (fun e => h x (List.mem_cons_self) e.symm)

/-- A slot that one insert names carries its source (R15). -/
theorem insertedSlots_own (l : List Insert) (v : Vector RawSample 64) (k : Computation) (i : Insert) (hi : i ∈ l)
    (h : ∀ j ∈ l, j.slot = i.slot → j = i) :
    (l.foldl (fun v i => put v i.slot (rawOf (k.insertSample i.source))) v)[i.slot] =
      rawOf (k.insertSample i.source) := by
  induction l generalizing v with
  | nil => cases hi
  | cons x l ih =>
    rw [List.foldl_cons]
    by_cases hl : i ∈ l
    · exact ih _ hl (fun j hj => h j (List.mem_cons_of_mem _ hj))
    · have hx : x = i := by
        rcases List.mem_cons.mp hi with e | e
        · exact e.symm
        · exact absurd e hl
      subst hx
      rw [insertedSlots_other l _ k x.slot (fun j hj e => hl ((h j (List.mem_cons_of_mem _ hj) e) ▸ hj))]
      exact put_get_self _ _ _

/-- The next cycle to send: the arrived one in LOCKED and SUSPECT, else one that the node generates (R8). -/
theorem nextForward_forward (s : State) : s.nextForward.ring.forward = (match s.ring.rx, s.ring.arrived with
          | .locked, some c => { cycle := c, alertFree := false, generated := false }
          | .suspect, some c => { cycle := c, alertFree := false, generated := false }
          | _, _ =>
            { cycle :=
                { pattern := 0x3A97, number := s.ring.cycleNumber + 1, control := 0, alert := 0
                  slots := Vector.replicate 64 0x800000 }
              alertFree := true, generated := true }) := by
  unfold State.nextForward
  simp only [State.setRing_ring]
  cases s.ring.rx <;> cases s.ring.arrived <;> rfl

theorem begun_blocks (s u w : State) (hu : u = if s.ring.arrived.isSome then s else closePeriod s)
    (hw : w = forEach 4 (fun p s => s.idlePlayer p) u) :
    s.begun = ((burstGrant (takeStart w).scanChoose).pollStart).readTaps ∧ IdleFrame u w ∧ EventFrame s u := by
  subst hu hw
  exact ⟨rfl, idlePlayers_idle _, begun_kept s⟩

theorem prepare_more (b : State) (frame : Vector RawSample 32) : let c := b.prepare frame
   c.alarm = b.alarm ∧ c.pages = b.pages ∧ c.icom = b.icom ∧ c.feeds = b.feeds ∧ c.clips = b.clips ∧
     c.scene = b.scene ∧ c.trackers = b.glideAll.trackers := by
  simp only [State.prepare, State.takeInputs, State.glideAll, State.duckAll, State.setMix_alarm, State.setMix_pages,
    State.setMix_icom, State.setMix_feeds, State.setMix_clips, State.setMix_scene, State.setMix_trackers,
    State.setTrackers_alarm, State.setTrackers_pages,
    State.setTrackers_icom, State.setTrackers_feeds, State.setTrackers_clips, State.setTrackers_scene,
    State.setTrackers_trackers,
    State.setPorts_alarm, State.setPorts_pages, State.setPorts_trackers,
    State.setPorts_icom, State.setPorts_feeds, State.setPorts_clips, State.setPorts_scene, and_self]

theorem playerSteps_alarm (s : State) : (forEach 4 (fun p s => s.playerStep p) s).alarm = s.alarm ∧
   (forEach 4 (fun p s => s.playerStep p) s).feeds = s.feeds ∧
   (forEach 4 (fun p s => s.playerStep p) s).trackers = s.trackers ∧
   (forEach 4 (fun p s => s.playerStep p) s).clips.capture = s.clips.capture := by
  refine forEach_keeps (R := fun s t => t.alarm = s.alarm ∧ t.feeds = s.feeds ∧ t.trackers = s.trackers ∧
    t.clips.capture = s.clips.capture) (fun s => ⟨rfl, rfl, rfl, rfl⟩)
    (fun h k => ⟨k.1.trans h.1, k.2.1.trans h.2.1, k.2.2.1.trans h.2.2.1, k.2.2.2.trans h.2.2.2⟩) 4 _ (fun p s => ?_) s
  unfold State.playerStep
  dsimp only
  split <;> split <;> simp [State.setPlayer]

theorem feedRecoveries_alarm (s : State) : (forEach 4 (fun p s => s.feedRecovery p) s).alarm = s.alarm ∧
   (forEach 4 (fun p s => s.feedRecovery p) s).trackers = s.trackers ∧
   (forEach 4 (fun p s => s.feedRecovery p) s).clips = s.clips := by
  refine forEach_keeps (R := fun s t => t.alarm = s.alarm ∧ t.trackers = s.trackers ∧
    t.clips = s.clips) (fun s => ⟨rfl, rfl, rfl⟩)
    (fun h k => ⟨k.1.trans h.1, k.2.1.trans h.2.1, k.2.2.trans h.2.2⟩) 4 _ (fun p s => ?_) s
  unfold State.feedRecovery State.changeFeed State.setFeed
  dsimp only
  repeat' split
  all_goals simp

theorem advance_def (s p g f : State) (hp : forEach 4 (fun p s => s.playerStep p) s = p)
    (hg : (p.setAlarm p.alarm.advanceAll).feedTick = g) (hf : forEach 4 (fun f s => s.feedRecovery f) g = f) :
    s.advance = f.captureSample.measureAll := by
  subst hp hg hf; unfold State.advance; rfl

theorem feedTick_blocks (s : State) : s.feedTick = s.setFeeds s.feedTick.feeds := rfl

theorem advance_alarm (s : State) : s.advance.alarm = s.alarm.advanceAll := by
  rw [advance_def s _ _ _ rfl rfl rfl]
  have h := (feedRecoveries_alarm ((forEach 4 (fun p s => s.playerStep p) s).setAlarm
    (forEach 4 (fun p s => s.playerStep p) s).alarm.advanceAll).feedTick).1
  have k := (playerSteps_alarm s).1
  generalize forEach 4 (fun p s => s.playerStep p) s = p at *
  generalize (forEach 4 (fun f s => s.feedRecovery f) (p.setAlarm p.alarm.advanceAll).feedTick) = f at *
  simp only [State.measureAll, State.captureSample, State.setTrackers_alarm, State.setClips_alarm]
  rw [h, feedTick_blocks, State.setFeeds_alarm, State.setAlarm_alarm, k]

theorem advance_trackers (s : State) : s.advance.trackers = mapTable
    (fun z t => t.measure s.ports.samples (s.senseInput z 0) (s.senseInput z 1) (s.audibleIn z || s.covered z))
    s.trackers := by
  have h := advance_advanceFrame s
  rw [advance_def s _ _ _ rfl rfl rfl] at h ⊢
  have h2 := (feedRecoveries_alarm ((forEach 4 (fun p s => s.playerStep p) s).setAlarm
    (forEach 4 (fun p s => s.playerStep p) s).alarm.advanceAll).feedTick).2.1
  have k := (playerSteps_alarm s).2.2.1
  generalize forEach 4 (fun p s => s.playerStep p) s = p at *
  generalize (forEach 4 (fun f s => s.feedRecovery f) (p.setAlarm p.alarm.advanceAll).feedTick) = v at *
  have hp : v.ports = s.ports := h.ports
  have hq : v.pages = s.pages := h.pages
  have ha : v.alarm.coverage = s.alarm.coverage := (congrArg (·.coverage) h.records :)
  have ht : v.trackers = s.trackers := by
    rw [h2, feedTick_blocks, State.setFeeds_trackers, State.setAlarm_trackers, k]
  unfold State.measureAll
  rw [State.setTrackers_trackers]
  apply table_ext
  intro z
  rw [mapTable_get, mapTable_get]
  have e1 : v.captureSample.senseInput z = s.senseInput z := by
    funext p; unfold State.senseInput; simp only [State.captureSample, State.setClips_ports, hp]
  have e2 : v.captureSample.audibleIn z = s.audibleIn z := by
    unfold State.audibleIn State.holder; simp only [State.captureSample, State.setClips_pages, hq]
  have e3 : v.captureSample.covered z = s.covered z := by
    unfold State.covered; simp only [State.captureSample, State.setClips_alarm, ha]
  rw [e1, e2, e3]
  simp only [State.captureSample, State.setClips_ports, State.setClips_trackers, hp, ht]

/-- The first channel of the scanning order that can be measured (R171). -/
theorem scan_find (top : Fin 32) (ok : Fin 32 → Bool) (n : Nat) (p : Fin 32) :
    (∀ j, j < n → ok ((scanAfter top)^[j] p) = true → (∀ i < j, ok ((scanAfter top)^[i] p) = false) →
      (scanOrder top n p).find? ok = some ((scanAfter top)^[j] p)) ∧
    ((∀ j, j < n → ok ((scanAfter top)^[j] p) = false) → (scanOrder top n p).find? ok = none) := by
  induction n generalizing p with
  | zero => exact ⟨fun j h => absurd h (by omega), fun _ => rfl⟩
  | succ n ih =>
    constructor
    · intro j hj h1 h2
      unfold scanOrder
      cases j with
      | zero => simp only [Function.iterate_zero, id] at h1 ⊢; rw [List.find?_cons_of_pos h1]
      | succ j =>
        have h0 := h2 0 (by omega)
        simp only [Function.iterate_zero, id] at h0
        rw [List.find?_cons_of_neg (by simp [h0])]
        exact (ih _).1 j (by omega) h1 (fun i hi => h2 (i + 1) (by omega))
    · intro h
      unfold scanOrder
      have h0 := h 0 (by omega)
      simp only [Function.iterate_zero, id] at h0
      rw [List.find?_cons_of_neg (by simp [h0])]
      exact (ih _).2 (fun j hj => h (j + 1) (by omega))

end Sys2Proof.Machine
end

