-- ==== Sys2Proof/Laws/Events.lean ====
section
/-! SUPPORT. The events of a period as the statements speak of them, commands one after another, are the events that
its close takes. -/

namespace Sys2Proof.Machine

/-! ### Commands one after another -/

theorem after_append (s : State) (l k : List Instr) : s.after (l ++ k) = (s.after l).after k := List.foldl_append

theorem after_single (i : Instr) (s t : State) (h : exec i s = .next t) : s.after [i] = t := by
  simp only [State.after, List.foldl_cons, List.foldl_nil, h]

theorem after_map {α : Type} (l : List α) (f : α → Instr) (g : α → State → State)
    (h : ∀ a s, exec (f a) s = .next (g a s)) (s : State) : s.after (l.map f) = l.foldl (fun s a => g a s) s := by
  simp only [State.after, List.foldl_map]
  congr 1; funext t i; simp only [h]

theorem after_flatMap {α : Type} (l : List α) (f : α → List Instr) (g : α → State → State)
    (h : ∀ a s, s.after (f a) = g a s) (s : State) : s.after (l.flatMap f) = l.foldl (fun s a => g a s) s := by
  induction l generalizing s with
  | nil => rfl
  | cons a l ih => simp only [List.flatMap_cons, after_append, h, ih, List.foldl_cons]

theorem keyCommand_exec (x : Fin 32 × Key) (s : State) :
    exec (keyCommand x.1 x.2) s = .next (handleKey x.1 x.2 s) := by
  rcases x with ⟨p, k⟩
  cases k <;> rfl

/-! ### The events of each unit -/

theorem clipEvents_after (s : State) : s.after clipEvents = s.closeClips := by
  have three (t : State) : t.after [.captureFull, .captureEnd, .captureDone] =
      captureDone (captureEnd (captureFull t)) := rfl
  simp only [clipEvents, after_append, State.closeClips, forEach]
  rw [after_map _ Instr.playerPrimed playerPrimed (fun _ _ => rfl),
    after_map _ Instr.chimeEnd chimeEnd (fun _ _ => rfl),
    after_map _ Instr.sequenceEnd sequenceEnd (fun _ _ => rfl), after_single .burstDone s (burstDone s) rfl, three]

theorem feedEvents_after (s : State) : s.after feedEvents = s.closeFeeds := by
  have four (f : Fin 4) (t : State) :
      t.after [.feedChangeover f, .feedBothLost f, .feedAutoRevert f, .mismatchBlockEnd f] =
        mismatchBlockEnd f (feedAutoRevert f (feedBothLost f (feedChangeover f t))) := by
    simp only [State.after, List.foldl_cons, List.foldl_nil, exec, execFeedChangeover, execFeedBothLost,
      execFeedAutoRevert, execMismatchBlockEnd]
  simp only [feedEvents, after_append, State.closeFeeds, forEach]
  rw [after_flatMap _ _
    (fun f s => mismatchBlockEnd f (feedAutoRevert f (feedBothLost f (feedChangeover f s)))) four]
  exact after_single _ _ _ rfl

theorem alarmEvents_after (s : State) : s.after alarmEvents = s.closeAlarms := by
  simp only [alarmEvents, after_append, State.closeAlarms, forEach]
  rw [after_map _ Instr.contactActivate contactActivate (fun _ _ => rfl),
    after_map _ Instr.contactClear contactClear (fun _ _ => rfl),
    after_map _ Instr.broadcastRefresh broadcastRefresh (fun _ _ => rfl),
    after_map _ Instr.notConfirmed notConfirmed (fun _ _ => rfl),
    after_map _ Instr.generatorStepEnd generatorStepEnd (fun _ _ => rfl)]

theorem lastEvents_after (s : State) : s.after lastEvents = s.closeRest := by
  simp only [lastEvents, after_append, State.closeRest, forEach]
  rw [after_map _ Instr.trackerBlockEnd trackerBlockEnd (fun _ _ => rfl),
    after_map _ Instr.slotClash slotClash (fun _ _ => rfl)]
  exact after_single _ _ _ rfl

theorem slotOver_after (s : State) :
    (if s.icom.slotTime = 0 then s.after (s.icom.awaiting.toList.map .pollMiss) else s) = s.slotOver := by
  simp only [State.slotOver]
  cases s.icom.awaiting
  · simp [State.after]
  · rfl

theorem callEventsTaken_eq (s : State) : s.callEventsTaken = s.closeCalls := by
  simp only [State.callEventsTaken, State.closeCalls, slotOver_after, forEach]
  rw [after_map _ Instr.stationLost stationLost (fun _ _ => rfl)]
  generalize List.foldl (fun s a => stationLost a s) s.slotOver (indices 32) = s
  rw [after_map s.icom.keys (fun x => keyCommand x.1 x.2) (fun x s => handleKey x.1 x.2 s) keyCommand_exec]
  simp only [State.leftKeys]
  generalize List.foldl (fun s (x : Fin 32 × Key) => handleKey x.1 x.2 s) s s.icom.keys = s
  rw [after_map _ Instr.cueTimerExpiry cueTimerExpiry (fun _ _ => rfl)]
  generalize List.foldl (fun s a => cueTimerExpiry a s) s (indices 32) = s
  rw [after_flatMap _ _ (fun c s => callHeldTooLong c.id (callNoAnswer c.id s)) (fun _ _ => rfl), List.foldl_map]

theorem pageEventsTaken_settle (s : State) : s.pageEventsTaken.settle = s.closePages := by
  simp only [State.pageEventsTaken, State.closePages, State.pageIds, List.foldl_map]
  rw [after_flatMap _ _
    (fun (p : Page) s => pageExpired p.id (pageSourceLost p.id (pageTimedOut p.id (gapEnd p.id s)))) (fun _ _ => rfl)]

/-- All events of a period up to its grant passes, and those passes. -/
theorem eventsTaken_settle (s : State) :
    s.eventsTaken.settle = s.closeClips.closeFeeds.closeAlarms.closeCalls.closePages := by
  simp only [State.eventsTaken, clipEvents_after, feedEvents_after, alarmEvents_after, callEventsTaken_eq,
    pageEventsTaken_settle]

end Sys2Proof.Machine
end

