-- ==== Sys2Proof/Laws/Memory.lean ====
section
/-! SUPPORT. Clip memory: a read after a write gives the word written, a write leaves every other word alone, and every
operation keeps the canonical form. -/

namespace Sys2Proof.Machine

/-! ### Reading after writing -/

/-- A list whose addresses all lie above an address holds no word at it. -/
theorem memRead_above (m : List ClipCell) (b a : Nat) (h : addressesAbove b m = true) (hab : a ≤ b) :
    memRead m a = Config.unwrittenClipWord := by
  induction m generalizing b with
  | nil => rfl
  | cons x rest ih =>
    obtain ⟨y, w⟩ := x
    simp only [addressesAbove, Bool.and_eq_true, decide_eq_true_eq] at h
    have hy : y ≠ a := by omega
    have := ih y h.2 (by omega)
    simpa [memRead, hy] using this

/-- The canonical form, as the form above no address. -/
theorem wf_cons (y : Nat) (w : ClipWord) (rest : List ClipCell) :
    Memory.wf ((y, w) :: rest) = true ↔
      y < Config.clipMemoryWords ∧ w ≠ Config.unwrittenClipWord ∧ addressesAbove y rest = true := by
  simp [Memory.wf, and_assoc]

theorem addressesAbove_cons (b y : Nat) (w : ClipWord) (rest : List ClipCell) :
    addressesAbove b ((y, w) :: rest) = true ↔
      b < y ∧ y < Config.clipMemoryWords ∧ w ≠ Config.unwrittenClipWord ∧ addressesAbove y rest = true := by
  simp [addressesAbove, and_assoc]

theorem wf_of_above (b : Nat) (m : List ClipCell) (h : addressesAbove b m = true) : Memory.wf m = true := by
  cases m with
  | nil => rfl
  | cons x rest => exact (wf_cons _ _ _).mpr ((addressesAbove_cons _ _ _ _).mp h).2

/-- A write above a bound keeps the form above it. -/
theorem memWrite_above (m : List ClipCell) (b x : Nat) (w : ClipWord) (h : addressesAbove b m = true) (hb : b < x)
    (hx : x < Config.clipMemoryWords) : addressesAbove b (memWrite m x w) = true := by
  induction m generalizing b with
  | nil =>
    simp only [memWrite]; split
    · rfl
    · rename_i hw; exact (addressesAbove_cons _ _ _ _).mpr ⟨hb, hx, hw, rfl⟩
  | cons y rest ih =>
    obtain ⟨a, v⟩ := y
    have hy := (addressesAbove_cons _ _ _ _).mp h
    simp only [memWrite]
    split
    · rename_i hlt
      split
      · exact h
      · rename_i hw
        exact (addressesAbove_cons _ _ _ _).mpr
          ⟨hb, hx, hw, (addressesAbove_cons _ _ _ _).mpr ⟨hlt, hy.2.1, hy.2.2.1, hy.2.2.2⟩⟩
    · rename_i hnlt
      split
      · rename_i heq; subst heq
        split
        · cases rest with
          | nil => rfl
          | cons z r =>
            have hz := (addressesAbove_cons _ _ _ _).mp hy.2.2.2
            exact (addressesAbove_cons _ _ _ _).mpr ⟨by omega, hz.2⟩
        · rename_i hw
          exact (addressesAbove_cons _ _ _ _).mpr ⟨hb, hx, hw, hy.2.2.2⟩
      · rename_i hne
        exact (addressesAbove_cons _ _ _ _).mpr ⟨hy.1, hy.2.1, hy.2.2.1, ih a hy.2.2.2 (by omega)⟩

/-- A write keeps the canonical form. -/
theorem memWrite_wf (m : List ClipCell) (x : Nat) (w : ClipWord) (h : Memory.wf m = true)
    (hx : x < Config.clipMemoryWords) : Memory.wf (memWrite m x w) = true := by
  cases m with
  | nil =>
    simp only [memWrite]; split
    · rfl
    · rename_i hw; exact (wf_cons _ _ _).mpr ⟨hx, hw, rfl⟩
  | cons y rest =>
    obtain ⟨a, v⟩ := y
    have hy := (wf_cons _ _ _).mp h
    simp only [memWrite]
    split
    · rename_i hlt
      split
      · exact h
      · rename_i hw
        exact (wf_cons _ _ _).mpr ⟨hx, hw, (addressesAbove_cons _ _ _ _).mpr ⟨hlt, hy⟩⟩
    · rename_i hnlt
      split
      · rename_i heq; subst heq
        split
        · exact wf_of_above x _ hy.2.2
        · rename_i hw; exact (wf_cons _ _ _).mpr ⟨hx, hw, hy.2.2⟩
      · rename_i hne
        exact (wf_cons _ _ _).mpr ⟨hy.1, hy.2.1, memWrite_above _ _ _ _ hy.2.2 (by omega) hx⟩

/-- Writes of any cells keep the canonical form. -/
theorem memWriteAll_wf (cells m : List ClipCell) (h : Memory.wf m = true) : Memory.wf (memWriteAll m cells) = true := by
  induction cells generalizing m with
  | nil => exact h
  | cons c rest ih => exact ih _ (memWrite_wf _ _ _ h (Nat.mod_lt _ (by decide)))

theorem memRead_memWrite_above (m : List ClipCell) (b x a : Nat) (w : ClipWord) (h : addressesAbove b m = true) :
    memRead (memWrite m x w) a = if a = x then w else memRead m a := by
  induction m generalizing b with
  | nil =>
    simp only [memWrite]
    split
    · rename_i hw; subst hw; simp [memRead]
    · simp only [memRead, eq_comm]
  | cons y rest ih =>
    obtain ⟨c, v⟩ := y
    have hy := (addressesAbove_cons _ _ _ _).mp h
    simp only [memWrite]
    split
    · rename_i hlt
      split
      · rename_i hw
        by_cases ha : a = x
        · subst ha
          have hc : c ≠ a := by omega
          simp [memRead, hc, memRead_above rest c a hy.2.2.2 (by omega), hw]
        · simp [ha]
      · simp only [memRead, eq_comm]
    · rename_i hnlt
      split
      · rename_i heq; subst heq
        split
        · rename_i hw
          by_cases ha : a = x
          · subst ha; simp [memRead_above rest a a hy.2.2.2 (le_refl a), hw]
          · have : x ≠ a := fun e => ha e.symm
            simp [memRead, ha, this]
        · by_cases ha : a = x
          · subst ha; simp [memRead]
          · have : x ≠ a := fun e => ha e.symm
            simp [memRead, ha, this]
      · rename_i hne
        by_cases hc : c = a
        · subst hc
          have : c ≠ x := fun e => hne e.symm
          simp [memRead, this]
        · simpa [memRead, hc] using ih c hy.2.2.2

/-- A read after a write in a memory in canonical form gives the word written at its address, and any other word as it
was. -/
theorem memRead_memWrite (m : List ClipCell) (x a : Nat) (w : ClipWord) (h : Memory.wf m = true) :
    memRead (memWrite m x w) a = if a = x then w else memRead m a := by
  cases m with
  | nil => exact memRead_memWrite_above [] 0 x a w rfl
  | cons y rest =>
    obtain ⟨c, v⟩ := y
    have hy := (wf_cons _ _ _).mp h
    simp only [memWrite]
    split
    · rename_i hlt
      split
      · rename_i hw
        by_cases ha : a = x
        · subst ha
          have hc : c ≠ a := by omega
          simp [memRead, hc, memRead_above rest c a hy.2.2 (by omega), hw]
        · simp [ha]
      · simp only [memRead, eq_comm]
    · rename_i hnlt
      split
      · rename_i heq; subst heq
        split
        · rename_i hw
          by_cases ha : a = x
          · subst ha; simp [memRead_above rest a a hy.2.2 (le_refl a), hw]
          · have : x ≠ a := fun e => ha e.symm
            simp [memRead, ha, this]
        · by_cases ha : a = x
          · subst ha; simp [memRead]
          · have : x ≠ a := fun e => ha e.symm
            simp [memRead, ha, this]
      · rename_i hne
        by_cases hc : c = a
        · subst hc
          have : c ≠ x := fun e => hne e.symm
          simp [memRead, this]
        · simpa [memRead, hc] using memRead_memWrite_above rest c x a w hy.2.2

/-! ### The bursts -/

/-- A burst that completes writes the words it carries, and a read burst writes none. -/
theorem complete_memory (c : Clips) (k : BurstKind) :
    (c.complete k).memory =
      match k with
      | .playerRead _ _ _ _ _ => c.memory
      | .captureWrite cells => memWriteAll c.memory cells
      | .bufferWrite cells => memWriteAll c.memory cells := by
  cases k with
  | playerRead p pos off len stale =>
    simp only [Clips.complete]
    split
    · split <;> rfl
    · rfl
  | captureWrite cells => rfl
  | bufferWrite cells => rfl

/-- The end of a burst keeps the canonical form; no other operation of the clip engine writes the memory. -/
theorem complete_wf (c : Clips) (k : BurstKind) (h : Memory.wf c.memory = true) :
    Memory.wf (c.complete k).memory = true := by
  rw [complete_memory]
  cases k with
  | playerRead p pos off len stale => exact h
  | captureWrite cells => exact memWriteAll_wf _ _ h
  | bufferWrite cells => exact memWriteAll_wf _ _ h

theorem burstDone_wf (s : State) (h : Memory.wf s.clips.memory = true) :
    Memory.wf (burstDone s).clips.memory = true := by
  simp only [burstDone]
  split
  · split
    · exact complete_wf _ _ h
    · exact h
  · exact h

@[simp] theorem grant_memory (c : Clips) : c.grant.memory = c.memory := by
  simp only [Clips.grant]
  split
  · rfl
  · split
    · rfl
    · split
      · rfl
      · split <;> rfl

/-- Memory at reset is in canonical form. -/
theorem reset_memory_wf : Memory.wf State.reset.clips.memory = true := rfl

end Sys2Proof.Machine
end

