-- ==== Sys2Proof/Tests/Slice0.lean ====
section
/-! SUPPORT. Tests: a refused term for each check of WellFormed, cases worked in the manual or by hand from its rules,
and, for each statement with hypotheses, a state and operands that meet them (named test_witness_…). -/

namespace Sys2Proof.Tests

open Sys2Proof.Machine

-- One theorem at a time: evaluations in parallel each take a thread, and together more than the checker's memory limit.
set_option Elab.async false

/-! ### Well-formedness -/

theorem test_wf_closeOther : (Instr.closeOther 0 0x0300).wf = false := by decide +kernel
theorem test_wf_badControlWord : (Instr.badControlWord 0).wf = false := by decide +kernel
theorem test_wf_universalClose : (Instr.universalCloseForwarded 0x2800).wf = false := by decide +kernel
theorem test_wf_pollReply_three : (Instr.pollReply 0 [.answer, .answer, .answer]).wf = false := by decide +kernel
theorem test_wf_pollReply_number : (Instr.pollReply 0 [.call 0]).wf = false := by decide +kernel
theorem test_wf_call : (Instr.call 0 10000).wf = false := by decide +kernel
theorem test_wf_gapEnd : (Instr.gapEnd 0).wf = false := by decide +kernel
theorem test_wf_pageExpired : (Instr.pageExpired 0).wf = false := by decide +kernel
theorem test_wf_pageTimedOut : (Instr.pageTimedOut 0).wf = false := by decide +kernel
theorem test_wf_pageSourceLost : (Instr.pageSourceLost 0).wf = false := by decide +kernel
theorem test_wf_callNoAnswer : (Instr.callNoAnswer 0).wf = false := by decide +kernel
theorem test_wf_callHeldTooLong : (Instr.callHeldTooLong 0).wf = false := by decide +kernel
theorem test_wf_accepts : (Instr.call 0 9999).wf = true ∧ (Instr.badControlWord 1).wf = true ∧
    (Instr.universalCloseForwarded 0x0300).wf = true ∧
    (Instr.pollReply 3 [.call 1, .hangUp]).wf = true := by decide +kernel

/-! ### Words on the line and sample arithmetic -/

/-- The check register by hand: a single 1 bit, shifted (R41). -/
theorem test_controlCheck : [1, 2, 4, 8, 16].map (fun b => controlCheck b) = [0x09, 0x12, 0x24, 0x48, 0x19] := by
  decide +kernel
theorem test_alertCheck : [1, 2, 4, 8].map (fun b => alertCheck b) = [0x3, 0x6, 0xC, 0xB] := by decide +kernel

/-- The idle word and the EMPTY alert word are zero (R41); a word of kind 6 is bad with a right check (R25). -/
theorem test_idle_words : controlWord .idle 0 0 = 0 ∧ alertWord 0 0 0 0 0 0 = 0 ∧ badWord 0 = false ∧
    badWord ((0x1800000 : BitVec 25) ++ controlCheck 0x1800000) = true := by decide +kernel

/-- 4.9.1, 4.9.2 and 4.9.3. -/
theorem test_zoneOutput : zoneOutput 13107200000 0 32768000000 4096 16384 23143 12000 = 2215630 ∧
    zoneOutput 13107200000 0 36044800000 4096 16384 65226 16384 = 8388607 ∧
    zoneOutput 13107200000 0 32768000000 4096 11599 23143 12000 = 2172858 ∧
    roundDiv 16384 (-24576) = -1 := by decide +kernel

/-- 5.2.1. -/
theorem test_blend : blend 4800 1 16384 8192 = 16382 ∧ blend 4800 1 16384000000 0 = 16380586667 ∧
    blend 4800 4799 16384 8192 = 8194 ∧ blend 4800 4799 16384000000 0 = 3413333 ∧ blend 2 1 (-1) 0 = 0 ∧
    blend 2 1 1 0 = 1 := by decide +kernel

/-- 6.2.1. -/
theorem test_clipWordOf : [1000, 128, -128, -384, 8388607, -8388607].map clipWordOf = [4, 1, 0, -1, 32767, -32767] := by
  decide +kernel

/-- 8.7.1. -/
theorem test_callGain : withCallGain 20000 1500000 = 1831055 ∧ withCallGain 20000 7000000 = 8388607 := by decide +kernel

/-- 9.2.1. -/
theorem test_sweep_divider :
    let p : PatternStep := { mode := .sweep, duration := 100, n1 := 96, n2 := 40, amplitude := 5, last := true }
    p.divider 0 = 96 ∧ p.divider 96 = 96 ∧ p.divider 24000 = 68 ∧ p.divider 47950 = 41 ∧
    ({ p with n2 := 20 } : PatternStep).divider 47999 = 24 := by decide +kernel

/-- 9.8.1. -/
theorem test_alarmOutput : alarmOutput 4194304 16384 0 12288 = 3145728 ∧
    alarmOutput 4194304 4096 2000000 16384 = 3048576 ∧ alarmLevel .test 12288 = 3072 ∧
    alarmOutput (-4194304) 16384 0 3072 = -786432 ∧ alarmOutput 8388607 16384 8388607 16384 = 8388607 ∧
    alarmOutput 4194304 16384 0 16384 = 4194304 := by decide +kernel

/-- 11.8.1. -/
theorem test_noiseBin : noiseBin (Vector.ofFn (fun i : Fin 16 => [10, 30, 60, 100, 150, 90, 40].getD i.val 0)) 50 = 4 ∧
    noiseBin (Vector.ofFn (fun i : Fin 16 => [10, 30, 60, 100, 150, 90, 40].getD i.val 0)) 90 = 5 := by decide +kernel

/-- 11.8.2: the combined bins, the target steps and the glide. -/
theorem test_settle : combineBins 6 7 = 6 ∧ combineBins 5 9 = 5 ∧
    (let c : TrackerSettings :=
      { percentile := 50, quiet := 3, slope := 2, kmin := 0, kmax := 6, rise := 3, fall := 50, seed := 0 }
     targetStep c 6 = 6 ∧ targetStep c 5 = 4 ∧
     ({ ZoneTracker.powerOn with settings := c, k := 2, up := 2 }.settle 4).k = 3) ∧
    glide 23143 27505 = 23159 ∧ glide 27495 27505 = 27505 := by decide +kernel

/-- The input stage: the lowest TWOS word is no marker, a trimmed sample saturates, OFFSET is centred (R44, R45). -/
theorem test_inputStage : inputStage .twos 0 0x800000 = -8388607 ∧ inputStage .twos 1 0x600000 = 8388607 ∧
    inputStage .offset 0 0 = -8388607 ∧ inputStage .offset 0 0x800001 = 1 := by decide +kernel

/-- A clip word at trim 16,384 is the word times 256; the duck envelope stops at its target (R103, R68). -/
theorem test_playerSample : playerSample 4 16384 = 1024 ∧ playerSample 0x8001 16384 = -8388352 ∧
    duckStep 4096 64 8 4100 = 4096 ∧ duckStep 16384 64 8 100 = 108 := by decide +kernel

/-! ### States -/

/-- A LOCKED node of address 5. -/
def locked : State :=
  { State.reset with ring := { State.reset.ring with rx := .locked, goodRun := 8, address := 5, prevNumber := 100 } }

/-- The state with parameter words in an unmarked buffer and no pending reply. -/
def asking (s : State) (ws : List Word16) : State :=
  { s with ctl := { s.ctl with buffer := { words := ws, tooLong := false, spoiled := false }, reply := none } }

theorem asked_of (s : State) (ws : List Word16) (h : s.ring.rx = .locked) (k : s.ring.address = 5) :
    (asking s ws).asked 5 ws := ⟨⟨h, by decide, k.symm, rfl⟩, rfl⟩

/-- The state after a command. -/
def run (i : Instr) (s : State) : State :=
  match exec i s with
  | .next t => t
  | _ => s

/-- The state after a request with these parameter words. -/
def ask (f : NodeAddr → BitVec 8 → Instr) (ws : List Nat) (s : State) : State := run (f 5 0) (asking s (ws.map word))

/-- The status and the reply words of the pending reply. -/
def answer (s : State) : Option (Status × List Nat) := s.ctl.reply.map (fun r => (r.status, r.words.map BitVec.toNat))

/-- The kinds, subjects and details of the event list. -/
def posted (s : State) : List (EventKind × Nat × Nat) := s.ctl.events.map (fun e => (e.kind, e.subject.toNat, e.detail.toNat))

def withReply (s : State) (r : Option Reply) : State := { s with ctl := { s.ctl with reply := r } }
def withBuffer (s : State) (b : RequestBuffer) : State := { s with ctl := { s.ctl with buffer := b } }
def withRx (s : State) (rx : RxState) (goodRun missCount : Nat) : State :=
  { s with ring := { s.ring with rx := rx, goodRun := goodRun, missCount := missCount } }
def withTaps (s : State) (x : Int) : State := { s with ring := { s.ring with taps := Vector.replicate 64 x } }
def withInserts (s : State) (l : List Insert) : State := { s with ring := { s.ring with inserts := l } }
def withPages (s : State) (l : List Page) : State := { s with pages := { queue := l, nextArrival := 9, passes := 0 } }
def withCalls (s : State) (l : List Call) : State := { s with icom := { s.icom with calls := l, lastCall := 9 } }
def withKey (s : State) (p : Fin 32) (k : Key) : State := { s with icom := { s.icom with keys := [(p, k)] } }
def withEntry (s : State) (c : Fin 256) (e : ClipEntry) : State :=
  { s with clips := { s.clips with directory := put s.clips.directory c (some e) } }
def withCapture (s : State) (c : Capture) : State := { s with clips := { s.clips with capture := c } }
def withFeed (s : State) (x : Feed) : State := { s with feeds := put s.feeds 0 x }
def withScene (s : State) (x : Scene) : State := { s with scene := x }
def withMode (s : State) (m : WriteMode) : State :=
  { s with ctl := { s.ctl with settings := { s.ctl.settings with writeMode := m, emergency := 2107 } } }
def withBurst (s : State) (k : BurstKind) (elapsed : Nat) : State :=
  { s with clips := { s.clips with burst := some { kind := k, elapsed := elapsed } } }
def withPlayer (s : State) (x : Player) : State := { s with clips := { s.clips with players := put s.clips.players 0 x } }
def withRecord (s : State) (e : Fin 8) (r : AlarmRec) : State :=
  { s with alarm := { s.alarm with records := put s.alarm.records e (some r), startOrder := s.alarm.startOrder ++ [e] } }
def withLines (s : State) (x : Lines) : State := { s with lines := x }
def withTracker (s : State) (x : ZoneTracker) : State := { s with trackers := put s.trackers 5 x }

/-- Stations on ports 4 and 7, PRESENT, with numbers 2104 and 2107, listening to zones 10 and 11 (8.11). -/
def panel (n : DirNumber) (p : Fin 32) (z : Fin 24) : Station :=
  { number := n, mic := p, speaker := p, listen := some z, breakIn := 5, pageGroup := 0xF, pagePrio := 3, pageLimit := 60
    volumeZone := some z, cueTimer := 0, cueDue := false }
def stations : State :=
  { locked with icom := { locked.icom with
    table := put (put locked.icom.table 4 (some (panel 2104 4 10))) 7 (some (panel 2107 7 11))
    presence := put (put locked.icom.presence 4 { present := true, misses := 0 }) 7 { present := true, misses := 0 } } }
def localCall (state : CallState) : Call := { newCall 42 (.loc 4 7) false 0 with state := state }
def trunkCall (state : CallState) : Call := { newCall 43 (.trunkIn 7 300) false 0 with state := state }

def livePage (id : PageId) (state : PageState) : Page :=
  { newPage id 3 .request (.liveSlot 9) none 0xF false 1 0 5 60 16384 0 with
    state := state, phase := .audio, granted := if state = .playing then 0xF else 0 }
def clipPage (id : PageId) : Page :=
  { newPage id 3 .request (.clips [2]) none 0xF0 true 2 3 0 600 16384 1 with
    state := .playing, granted := 0xF0, player := some 0, phase := .gap, restartIn := some 0 }
def readyClip : ClipEntry := { start := 1000, region := 500, used := 100, state := .ready, honour := false, trim := 16384 }
def requestRecord (cls : AlarmClass) (broadcast : Bool) : AlarmRec :=
  { newRecord (.request 9) cls 2 0 none 4096 broadcast with sounding := true }

/-! ### Witnesses: steps, control words, node-wide requests -/

theorem test_witness_invariants :
    let s : State := withCalls (withPages { locked with pending := [.alertSend] } [livePage 7 .playing, clipPage 8])
      [localCall .ringing, trunkCall .ringing]
    s.memoryOk ∧ s.controlOk ∧ s.trackersOk ∧ s.insertsOk ∧ s.pagesOk ∧ s.callsOk ∧ ∃ t, step s = .next t := by
  refine ⟨rfl, ?_, ?_, ?_, ?_, ?_, _, rfl⟩
  · unfold State.controlOk; decide +kernel
  · unfold State.trackersOk ZoneTracker.inRange; decide +kernel
  · unfold State.insertsOk; decide +kernel
  · unfold State.pagesOk; decide +kernel
  · unfold State.callsOk; decide +kernel

theorem test_witness_outside_locked :
    lineWord (.identify 5 0) = some (controlWord .close 5 0x0300) ∧ State.reset.ring.rx = .hunt ∧
    (withRx locked .suspect 0 1).ring.rx = .suspect ∧ lineWord (.badControlWord 1) = some 1 := by decide +kernel

theorem test_witness_foreign_closes :
    closeOf (.readEvents 9 0) = some (0x04, 9, 0) ∧ locked.ring.rx = .locked ∧ (9 : NodeAddr) ≠ locked.ring.address ∧
    closeOf (.universalCloseForwarded 0x0300) = some (0x03, 0, 0) ∧ (0x03 : BitVec 8) ∉ universalCodes := by
  decide +kernel

theorem test_witness_overlap :
    let s := withReply locked (some { words := [1], code := 3, status := .ok })
    s.ring.rx = .locked ∧ (5 : NodeAddr) = s.ring.address ∧
    s.ctl.reply = some { words := [1], code := 3, status := .ok } ∧
    closeOf (.setNode 5 0) = some (0x06, 5, 0) := by decide +kernel

/-- One state for each row of R29, with one word too few and one too many. -/
theorem test_witness_examined :
    (asking locked []).own 5 ∧ (withBuffer locked { words := [], tooLong := false, spoiled := true }).own 5 ∧
    closeOf (.unknownRequest 5 0x07 0) = some (0x07, 5, 0) ∧ (0x07 : BitVec 8) ∉ requestCodes ∧
    (0x06 : BitVec 8) ∈ requestCodes ∧ wordCounts 0x06 = (5, 5) ∧ (asking locked [1, 2, 3, 4]).own 5 ∧
    (asking locked [1, 2, 3, 4, 5, 6]).own 5 ∧
    (withBuffer locked { words := [], tooLong := true, spoiled := false }).own 5 := by
  unfold State.own; decide +kernel

theorem test_witness_out_of_range :
    (asking locked [word 64, word 256]).asked 5 [word 64, word 256] ∧
    requestOf (.setInsert 5 0) = some (0x10, 5, 0) ∧ wordCounts 0x10 = (2, 2) ∧
    outOfRange 0x10 [word 64, word 256] = true ∧ outOfRange 0x10 [word 63, word 255] = true ∧
    outOfRange 0x10 [word 63, word 288] = true ∧ outOfRange 0x10 [word 63, word 287] = false :=
  ⟨asked_of _ _ rfl rfl, by decide +kernel⟩

theorem test_witness_param :
    locked.ring.rx = .locked ∧ (9 : NodeAddr) ≠ locked.ring.address ∧ (5 : NodeAddr) = locked.ring.address ∧
    locked.ctl.reply = none ∧
    (withReply locked (some { words := [], code := 3, status := .ok })).ctl.reply.isSome = true ∧
    (asking locked (List.replicate 16 0)).ctl.buffer.words.length = 16 := by decide +kernel

theorem test_witness_bad_words :
    locked.ring.rx = .locked ∧ (1 : BitVec 32).extractLsb' 0 7 ≠ controlCheck ((1 : BitVec 32).extractLsb' 7 25) ∧
    6 ≤ ((0xC0000000 : BitVec 32).extractLsb' 29 3).toNat := by decide +kernel

theorem test_witness_replies :
    locked.ctl.reply = none ∧
    (withReply locked (some { words := [7], code := 3, status := .ok })).ctl.reply =
      some { words := 7 :: [], code := 3, status := .ok } ∧
    (withReply locked (some { words := [], code := 3, status := .ok })).ctl.reply =
      some { words := [], code := 3, status := .ok } := by decide +kernel

/-- Requests without words: READ EVENTS, IDENTIFY, RESET NODE, RELEASE ALL, COPY BANK, READ LINES. -/
theorem test_witness_no_words : (asking locked []).asked 5 [] := asked_of _ _ rfl rfl

theorem test_witness_set_node :
    (asking locked [word true.toNat, 9999, 0, 0, 5]).asked 5 [word true.toNat, 9999, 0, 0, 5] ∧
    (9999 : Word16).toNat ≤ 9999 := ⟨asked_of _ _ rfl rfl, by decide⟩

theorem test_witness_enroll :
    let s := asking { locked with ring := { locked.ring with address := 0 } } [63]
    s.ring.rx = .locked ∧ s.ring.address = 0 ∧ s.ctl.reply = none ∧ s.ctl.buffer.spoiled = false ∧
    s.ctl.buffer = { words := [63], tooLong := false, spoiled := false } ∧ (63 : Word16).toNat ≤ 63 ∧
    63 < (64 : Word16).toNat ∧ locked.ring.address ≠ 0 ∧ (asking locked [9]).asked 5 [9] :=
  ⟨rfl, rfl, rfl, rfl, rfl, by decide, by decide, by decide, asked_of _ _ rfl rfl⟩

theorem test_witness_release :
    let s := withCalls locked [localCall .connected, trunkCall .ringing]
    s.ring.rx = .locked ∧ s.ctl.buffer = { words := [], tooLong := false, spoiled := false } ∧
    (s.icom.calls.map (·.id)).Nodup ∧ (asking s [1]).ctl.buffer.words ≠ [] := by decide +kernel

/-! ### Witnesses: ring, ports, mixing, scenes -/

def goodCycle : RingCycle := { pattern := 0x3A97, number := 101, control := 0, alert := 0, slots := markerSlots }
def badCycle : RingCycle := { goodCycle with number := 102 }

/-- A cycle read in each state of the receiver, good and bad, at each run that a clause names. -/
theorem test_witness_arrivals :
    locked.ring.reads 0 goodCycle = true ∧ locked.ring.reads 0 badCycle = true ∧
    goodCycle.number = locked.ring.prevNumber + 1 ∧ ¬ badCycle.number = locked.ring.prevNumber + 1 ∧
    (withRx locked .suspect 0 1).ring.reads 0 goodCycle = true ∧ (withRx locked .suspect 1 0).ring.goodRun = 1 ∧
    (withRx locked .suspect 0 3).ring.missCount = 3 ∧ (withRx locked .suspect 0 2).ring.missCount ≤ 2 ∧
    (withRx locked .hunt 0 0).ring.reads 7 goodCycle = true ∧ (withRx locked .hunt 1 0).ring.reads 0 goodCycle = true ∧
    (withRx locked .hunt 6 0).ring.goodRun ≤ 6 ∧
    (withRx locked .hunt 7 0).ring.reads 0 badCycle = true := by decide +kernel

theorem test_witness_lost_and_regained :
    (withRx locked .suspect 0 3).ring.reads 0 badCycle = true ∧
    closePeriod (withRx locked .suspect 0 3) = withRx locked .suspect 0 3 ∧
    (withRx locked .hunt 7 0).ring.reads 0 goodCycle = true ∧
    closePeriod (withRx locked .hunt 7 0) = withRx locked .hunt 7 0 ∧ locked.ctl.events.length < 16 := by decide +kernel

/-- The fourth miss with a local call and a trunk call (R6, R142). -/
theorem test_ring_lost_ends_trunk_calls :
    let s := withCalls (withRx locked .suspect 0 3) [localCall .connected, trunkCall .ringing]
    let t := run (.ringLost 0 badCycle) s
    s.callsOk ∧ closePeriod s = s ∧ (0 : Fin 1626) = s.ring.alignment ∧ s.ring.rx = .suspect ∧ s.ring.missCount = 3 ∧
    t.icom.calls = [localCall .connected] ∧ posted t = [(.ringLost, 0, 0), (.callEnded, 43, 7)] := by
  unfold State.callsOk; decide +kernel

/-- The word of 1.6.1 at node 14, one of a wrong check, one of hop count 63 and one of hop count 62. -/
theorem test_witness_alert_words :
    let w := alertWord 1 12 0 3 0 0
    locked.ring.rx = .locked ∧ locked.alertAccepted w = true ∧ locked.alertAccepted (w + 1) = false ∧
    locked.alertAccepted (alertWord 2 12 0 3 0 63) = true ∧ (alertHop (alertWord 1 12 0 3 0 62)).toNat ≤ 62 ∧
    locked.alarm.remoteEntry 12 0 = none ∧ locked.alarm.freeShared = some 4 ∧
    (withRecord locked 5 (newRecord (.remote 12 0) .crew 0 0 none 4096 false)).alarm.remoteEntry 12 0 = some 5 := by
  decide +kernel

theorem test_witness_alert_send :
    let w : SendWord := { entry := 0, on := true, group := 0, cls := .general, pattern := 0, fresh := false }
    let s : State := { locked with ring := { locked.ring with sendList := [w] } }
    s.ring.forward.alertFree = true ∧ s.ring.address ≠ 0 ∧ s.ring.sendList = w :: [] := by decide +kernel

theorem test_witness_slot_clash :
    let i : Insert := { slot := 3, source := .zone 2, clash := 48, reported := false }
    let j : Insert := { i with reported := true }
    (withInserts locked [i]).ring.inserts.find? (fun x => x.slot == 3) = some i ∧ i.clash = 48 ∧
    (withInserts locked [j]).ring.inserts.find? (fun x => x.slot == 3) = some j := by decide +kernel

theorem test_witness_inserts :
    (asking locked [word 63, word 771]).asked 5 [word 63, word 771] ∧ insertWord (.player 3) = some (word 771) ∧
    (asking locked [word 63]).asked 5 [word (63 : Fin 64).val] ∧ outOfRange 0x10 [word 64, word 256] = true ∧
    (withBuffer locked { words := List.replicate 16 0, tooLong := true, spoiled := false }).own 5 :=
  ⟨asked_of _ _ rfl rfl, rfl, asked_of _ _ rfl rfl, by decide +kernel, rfl, by decide, rfl, rfl⟩

/-- Role 267 is SENSE zone 5 position 1 (3.5.1). -/
theorem test_witness_ports :
    (asking locked [word true.toNat, word false.toNat]).asked 5 [word true.toNat, word false.toNat] ∧
    inputWord (.sense 5 1) = word 267 ∧
    (asking locked [word (31 : Fin 32).val, word (3 : Fin 4).val, inputWord (.sense 5 1)]).asked 5
      [word (31 : Fin 32).val, word (3 : Fin 4).val, inputWord (.sense 5 1)] ∧
    (asking locked [word (31 : Fin 32).val, channelWord (.station 31)]).asked 5
      [word (31 : Fin 32).val, channelWord (.station 31)] ∧
    (∃ j : Fin 32, j ≠ 31 ∧ ((run (.setInput 5 0) (asking locked [20, 0, 267])).ports.inputs[j]).role = .sense 5 1) ∧
    (stations.icom.table[(4 : Fin 32)]).any (fun e => e.speaker == 4) = true :=
  ⟨asked_of _ _ rfl rfl, rfl, asked_of _ _ rfl rfl, asked_of _ _ rfl rfl, ⟨20, by decide +kernel⟩, by decide +kernel⟩

theorem test_witness_routes :
    (asking locked [word (23 : Fin 24).val, routeWord (.feed 3), 5, word true.toNat]).asked 5
      [word (23 : Fin 24).val, routeWord (.feed 3), 5, word true.toNat] ∧
    (asking locked [word (23 : Fin 24).val, routeWord (.feed 3)]).asked 5 [word (23 : Fin 24).val, routeWord (.feed 3)] ∧
    (withMode locked .staged).ctl.settings.writeMode = .staged ∧
    (withScene locked { locked.scene with state := .crossfading }).scene.state ≠ .idle ∧
    (Bank.load Bank.powerOn { zone := 23, source := .feed 3, gain := 1, role := .programme }).routes.length = 1 :=
  ⟨asked_of _ _ rfl rfl, asked_of _ _ rfl rfl, by decide +kernel⟩

theorem test_witness_zones :
    modeWords (word 1) (word 15) (.showLocked 15) ∧ modeWords (word 0) (word 0) .normal ∧
    (asking locked [word (23 : Fin 24).val, word 1, word 15, 20000, 5, 0, 8]).asked 5
      [word (23 : Fin 24).val, word 1, word 15, 20000, 5, 0, 8] ∧
    (asking locked [word (23 : Fin 24).val, 20000, 9, 8]).asked 5 [word (23 : Fin 24).val, 20000, 9, 8] ∧
    (asking locked [word (23 : Fin 24).val]).asked 5 [word (23 : Fin 24).val] ∧
    ((locked.mix.bank locked.scene.active).fields[(23 : Fin 24)]).mode = .normal ∧
    locked.ctl.settings.writeMode = .direct ∧ (withMode locked .staged).ctl.settings.writeMode ≠ .direct :=
  ⟨⟨rfl, rfl, by decide, by decide⟩, rfl, asked_of _ _ rfl rfl, asked_of _ _ rfl rfl, asked_of _ _ rfl rfl, rfl, rfl,
    by decide⟩

theorem test_witness_take :
    (asking locked (4801 :: (some 7 : Option Word16).toList)).asked 5 (4801 :: (some 7 : Option Word16).toList) ∧
    (asking locked [0]).ctl.buffer = { words := 0 :: (none : Option Word16).toList, tooLong := false, spoiled := false } :=
  ⟨asked_of _ _ rfl rfl, rfl⟩

theorem test_witness_take_events :
    let waiting : Scene := { locked.scene with state := .waiting, start := .now }
    (withScene locked { waiting with length := 1 }).scene.start = .now ∧ (withScene locked waiting).scene.length = 0 ∧
    (withScene locked { waiting with state := .crossfading, lastDone := true }).scene.lastDone = true := by
  decide +kernel

theorem test_witness_feeds :
    (asking locked [word ((3 : Fin 4).val + 256), word (63 : Fin 64).val, word (0 : Fin 64).val, 47, 127, 65535]).asked 5
      [word ((3 : Fin 4).val + 256), word (63 : Fin 64).val, word (0 : Fin 64).val, 47, 127, 65535] ∧
    (asking locked [word (3 : Fin 4).val]).asked 5 [word (3 : Fin 4).val] ∧ locked.tap 6 = -8388608 ∧
    (withTaps locked 5).tap 6 ≠ -8388608 ∧
    (withFeed locked { Feed.powerOn 0 with state := .bothLost }).feeds[(0 : Fin 4)] =
      { Feed.powerOn 0 with state := .bothLost } :=
  ⟨asked_of _ _ rfl rfl, asked_of _ _ rfl rfl, by decide +kernel⟩

/-- A pair at its switch delay with the other slot present and empty, at one second of main, and at the end of a block
with 48 and 49 counts. -/
theorem test_witness_feed_events :
    let x : Feed := { Feed.powerOn 0 with selectedEmpty := 4800, bothEmpty := 4800 }
    (withFeed (withTaps locked 5) x).feeds[(0 : Fin 4)].delay ≤ x.selectedEmpty ∧
    (withTaps locked 5).tap x.backup ≠ -8388608 ∧
    (withFeed locked x).tap x.main = -8388608 ∧ locked.tap x.backup = -8388608 ∧
    ({ x with state := .onBackup, autoRevert := true, mainPresent := 48000 } : Feed).mainPresent = 48000 ∧
    ({ x with blockDone := true, blockCount := 48 } : Feed).blockCount ≤ 48 ∧
    48 < ({ x with blockDone := true, blockCount := 49 } : Feed).blockCount := by decide +kernel

/-! ### Witnesses: clips and pages -/

theorem test_witness_clip_directory :
    let ws := [word (255 : Fin 256).val, 63, 65436, 0, 100, word true.toNat, 5]
    (asking locked ws).asked 5 ws ∧ (63 : Word16).toNat ≤ 63 ∧ 63 * 65536 + 65436 + 100 = 4194304 ∧
    (asking locked [word (255 : Fin 256).val]).asked 5 [word (255 : Fin 256).val] ∧
    (withEntry locked 255 readyClip).clips.directory[(255 : Fin 256)] = some readyClip ∧
    (withEntry locked 255 { readyClip with state := .capturing }).clipCapturing 255 = true ∧
    (withPages locked [clipPage 8]).referenced 2 = true ∧
    (withEntry locked 2 readyClip).regionClash 255 1499 10 = true ∧
    (withEntry locked 2 readyClip).regionClash 255 1500 10 = false :=
  ⟨asked_of _ _ rfl rfl, by decide, by decide, asked_of _ _ rfl rfl, by decide +kernel⟩

/-- The last word of a region, and the word after the used length. -/
theorem test_witness_write_clip :
    let ws := word ((2 : Fin 256).val * 256 + 0) :: word 100 :: List.replicate 14 7
    (asking locked ws).asked 5 ws ∧ (List.replicate 14 (7 : ClipWord)).length ≤ 14 ∧
    (withEntry locked 2 readyClip).clips.directory[(2 : Fin 256)] = some readyClip ∧ readyClip.used = 100 ∧
    100 + 14 ≤ readyClip.region :=
  ⟨asked_of _ _ rfl rfl, by decide +kernel⟩

theorem test_witness_capture :
    let ws := [word (2 : Fin 256).val, word (63 : Fin 64).val, word true.toNat]
    (asking locked ws).asked 5 ws ∧ (withEntry locked 2 readyClip).clips.directory[(2 : Fin 256)] = some readyClip ∧
    locked.clips.capture.phase = .idle ∧
    (withCapture locked { Capture.idle with phase := .recording }).clips.capture.phase ≠ .idle :=
  ⟨asked_of _ _ rfl rfl, by decide +kernel⟩

theorem test_witness_capture_events :
    let c : Capture := { Capture.idle with phase := .recording, clip := 2, stored := 500, heard := true, emptyRun := 480 }
    let s := withCapture (withEntry locked 2 { readyClip with state := .capturing }) c
    s.clips.directory[s.clips.capture.clip] = some { readyClip with state := .capturing } ∧
    c.stored = readyClip.region ∧
    ({ c with stored := 480 } : Capture).stored ≠ readyClip.region ∧ 480 ≤ ({ c with stored := 480 } : Capture).stored ∧
    s.clips.burst = none ∧ ({ c with phase := .closing } : Capture).buffer = [] := by decide +kernel

/-- A player asks for a burst, as R101 says it. -/
def asks (s : State) (p : Fin 4) : Bool :=
  let x := s.clips.players[p]
  x.fetch.isSome && !x.releasing &&
    ((x.state == .priming && decide (x.fifo.length < 256)) || (x.state == .playing && decide (x.fifo.length ≤ 128)))

/-- The bounds of R101 and R102: 255 and 256 words in PRIMING, 128 and 129 in PLAYING, 63 and 64 captured words; a
player with one word of room, and one with 30 words of its clip left. -/
theorem test_asking :
    let x (state : PlayerState) (n off : Nat) : State := withPlayer (withEntry locked 2 readyClip)
      { Player.idle with state := state, sequence := [2], fetch := some (0, off), fifo := List.replicate n (0, 1) }
    let granted (s : State) : Option BurstKind := (run .burstGrant s).clips.burst.map (·.kind)
    let capture (n : Nat) (phase : CapturePhase) : State :=
      withCapture locked { Capture.idle with phase := phase, buffer := List.replicate n (5, 1) }
    asks (x .priming 255 0) 0 = true ∧ granted (x .priming 255 0) = some (.playerRead 0 0 0 1 false) ∧
    asks (x .priming 256 0) 0 = false ∧ granted (x .priming 256 0) = none ∧
    asks (x .playing 128 70) 0 = true ∧ granted (x .playing 128 70) = some (.playerRead 0 0 70 30 false) ∧
    asks (x .playing 129 0) 0 = false ∧ granted (x .playing 129 0) = none ∧
    (granted (capture 64 .recording)).isSome = true ∧ granted (capture 63 .recording) = none ∧
    granted (capture 1 .closing) = some (.captureWrite [(5, 1)]) ∧ granted locked = none := by decide +kernel

theorem test_witness_bursts :
    let x : Player := { Player.idle with state := .priming, sequence := [2], fetch := some (0, 0) }
    let s := withPlayer (withEntry locked 2 readyClip) x
    s.clips.burst = none ∧ asks s 0 = true ∧ (∀ q : Fin 4, asks s q = true → q = 0) ∧
    (s.clips.players[(0 : Fin 4)]).fetch = some (0, 0) ∧ (∀ p : Fin 4, asks locked p = false) ∧
    (withCapture locked { Capture.idle with phase := .closing, buffer := [(5, 1)] }).clips.capture.buffer ≠ [] ∧
    (withBurst locked (.captureWrite [(5, 1)]) 2).clips.burst = some { kind := .captureWrite [(5, 1)], elapsed := 2 } ∧
    (s.clips.players[(0 : Fin 4)]).sequence[0]?.bind (fun c => s.clips.directory[c]) = some readyClip ∧
    readyClip.honour = false := by decide +kernel

theorem test_witness_players :
    let x : Player := { Player.idle with state := .priming, sequence := [2] }
    let s := withPages (withPlayer locked { x with chimeEnd := .due, seqEnd := .due }) [{ clipPage 8 with phase := .chime }]
    x.state = .priming ∧ x.releasing = false ∧ x.fetch = none ∧ s.clips.burst = none ∧
    ((run (.playerPrimed 0) (withBurst (withPlayer locked x) (.playerRead 1 0 0 64 false) 1)).clips.players[
      (0 : Fin 4)]).state = .playing ∧
    (s.clips.players[(0 : Fin 4)]).seqEnd = .due ∧ s.playerPage 0 = some { clipPage 8 with phase := .chime } ∧
    (clipPage 8).clip = true ∧ (clipPage 8).current < (clipPage 8).repeats ∧
    ({ clipPage 8 with current := 2 } : Page).repeats ≤ ({ clipPage 8 with current := 2 } : Page).current := by
  decide +kernel

/-- A live page with the lowest and one with the highest operands, and a clip page. -/
theorem test_witness_queue_page :
    let ws : List Word16 := [1, 0x000F, word 0, 0xFFFF, 0, 0, 0, 0, 1, 0, 0, 0, 0, 0]
    let cs : List Word16 := [65279, 0x0811, word 514, word (3 : Fin 256).val, 0x0203, 0, 0, 0, 0, 0x80, 700, 700, 700, 5]
    (asking locked ws).asked 5 ws ∧ sourceWords (.liveSlot 0) (word 0) 0 0 0 0 ∧ zoneWords 1 1 0 ∧
    outOfRange 0x38 ws = false ∧ (asking locked cs).asked 5 cs ∧ sourceWords (.clips [2, 3]) (word 514) 0x0203 0 0 0 ∧
    zoneWords 0x800000 0 0x80 ∧ outOfRange 0x38 cs = false ∧ locked.pages.queue.length < 32 ∧
    (withEntry (withEntry locked 2 readyClip) 3 readyClip).clipReady 3 = true :=
  ⟨asked_of _ _ rfl rfl, rfl, ⟨by decide, by decide +kernel⟩, by decide +kernel, asked_of _ _ rfl rfl,
    ⟨by decide, by decide, rfl, by decide +kernel⟩, ⟨by decide, by decide +kernel⟩, by decide +kernel, by decide,
    by decide +kernel⟩

theorem test_witness_cancel_and_read :
    let s := withPages locked [livePage 7 .playing, clipPage 8]
    (8 : PageId) ≠ 0 ∧ (asking s [8]).asked 5 [8] ∧ s.pages.queue = [livePage 7 .playing] ++ clipPage 8 :: [] ∧
    (clipPage 8).id = 8 ∧ (∀ q ∈ [livePage 7 .playing], q.id ≠ 8) ∧ (∀ p ∈ s.pages.queue, p.id ≠ 9) ∧
    (asking s [0]).asked 5 [(0 : PageId)] :=
  ⟨by decide, asked_of _ _ rfl rfl, rfl, rfl, by decide, by decide +kernel, asked_of _ _ rfl rfl⟩

theorem test_witness_page_timers :
    let p : Page := { livePage 7 .suspended with waitTimer := 5 * 48000 }
    let q : Page := { livePage 7 .playing with playTimer := 60 * 48000, sourceLoss := 96000 }
    (withPages locked [p]).pages.queue = [] ++ p :: [] ∧ p.state ≠ .playing ∧ 0 < p.waitLife ∧
    p.waitTimer = p.waitLife * 48000 ∧ ({ p with waitTimer := 5 * 48000 - 1 } : Page).waitTimer < p.waitLife * 48000 ∧
    q.state = .playing ∧ q.clip = false ∧ q.playTimer = q.playLimit * 48000 ∧ (clipPage 8).restartIn = some 0 ∧
    (clipPage 8).joining = 0 ∧ (clipPage 8).source = .clips [2] ∧ (clipPage 8).player = some 0 := by decide +kernel

/-! ### Witnesses: intercom -/

def withAwaiting (s : State) (p : Fin 32) (misses : Nat) (present : Bool) : State :=
  { s with icom := { s.icom with
    awaiting := some p, presence := put s.icom.presence p { present := present, misses := misses } } }

/-- A slot awaiting its outcome at 2 and at 3 misses, a port with a call and an entry, one with neither, a cue due. -/
theorem test_witness_poll :
    (withAwaiting stations 4 2 true).icom.awaiting = some 4 ∧
    ((withAwaiting stations 4 2 true).icom.presence[(4 : Fin 32)]).misses ≤ 2 ∧
    ((withAwaiting stations 4 3 true).icom.presence[(4 : Fin 32)]) = { present := true, misses := 3 } ∧
    (withAwaiting stations 9 3 false).icom.presence[(9 : Fin 32)].present = false ∧
    (withCalls (withAwaiting stations 4 3 true) [localCall .ringing]).callOf 4 = some (localCall .ringing) ∧
    (withAwaiting stations 9 3 true).callOf 9 = none ∧
    (withAwaiting stations 9 3 true).icom.table[(9 : Fin 32)] = none ∧
    ({ stations with icom := { stations.icom with
      table := put stations.icom.table 4 (some { panel 2104 4 10 with cueDue := true }) } } : State).icom.table[(4 : Fin 32)] =
        some { panel 2104 4 10 with cueDue := true } := by decide +kernel

/-- Sixteen calls. -/
def fullTable : List Call :=
  (List.range 16).map (fun k => newCall (BitVec.ofNat 8 (k + 1)) (.trunkIn (Fin.ofNat 32 (16 + k)) 1) false 0)

theorem test_witness_call_keys :
    let s := withKey (withMode stations .direct) 4 (.call 2107)
    let e := withKey (withMode stations .direct) 4 .emergency
    let ringing := withCalls s [newCall 42 (.trunkIn 7 300) false 0]
    s.callsOk ∧ (withCalls s fullTable).callsOk ∧ (withCalls s fullTable).icom.calls.length = 16 ∧
    s.icom.table[(4 : Fin 32)] = some (panel 2104 4 10) ∧ s.icom.keys = (4, .call 2107) :: [] ∧
    e.icom.keys = (4, .emergency) :: [] ∧ e.ctl.settings.emergency = 2107 ∧ s.stationState 4 = .idle ∧
    s.stationWith 2107 = some 7 ∧ s.stationWith 2104 = some 4 ∧ s.stationWith 300 = none ∧ s.stationState 7 = .idle ∧
    ringing.callOf 7 = some (newCall 42 (.trunkIn 7 300) false 0) ∧ ringing.stationState 7 ≠ .idle ∧
    (withCalls s [newCall 42 (.trunkIn 7 300) true 0]).callOf 7 = some (newCall 42 (.trunkIn 7 300) true 0) ∧
    (withAwaiting s 7 3 false).stationState 7 = .absent := by
  unfold State.callsOk; decide +kernel

/-- A key event of a port without an entry is discarded (R129). -/
theorem test_witness_keys_without_entry :
    let keys : List (Key × Instr) := [(.call 2107, .call 9 2107), (.emergency, .emergency 9), (.answer, .answer 9),
      (.hangUp, .hangUp 9), (.pagePress, .pagePress 9), (.pageRelease, .pageRelease 9), (.volumeUp, .volumeUp 9),
      (.volumeDown, .volumeDown 9)]
    stations.icom.table[(9 : Fin 32)] = none ∧
    ∀ k ∈ keys, (withKey stations 9 k.1).icom.keys = (9, k.1) :: [] ∧ run k.2 (withKey stations 9 k.1) = stations := by
  decide +kernel

theorem test_witness_answer_and_hang_up :
    let s := withKey (withCalls stations [localCall .ringing]) 7 .answer
    let h : State := { s with alarm := { s.alarm with
      records := put s.alarm.records 0 (some (requestRecord .general false)), coverage := put s.alarm.coverage 11 (some 0) } }
    s.callsOk ∧ s.icom.table[(7 : Fin 32)] = some (panel 2107 7 11) ∧ s.icom.keys = (7, .answer) :: [] ∧
    s.stationState 7 = .ringing ∧ s.callOf 7 = some (localCall .ringing) ∧ s.stationState 4 ≠ .ringing ∧
    h.underGeneral 11 = true ∧ s.underGeneral 11 = false ∧
    (withCalls stations [trunkCall .ringing]).stationState 7 = .ringing ∧
    (withKey s 7 .hangUp).icom.keys = (7, .hangUp) :: [] ∧ stations.stationState 7 = .idle := by
  unfold State.callsOk; decide +kernel

theorem test_witness_page_and_volume_keys :
    let own : PageId := BitVec.ofNat 16 (65280 + 4)
    let s := withKey stations 4 .pagePress
    let t := withKey (withPages stations [livePage 7 .playing, { livePage own .playing with priority := 2 }]) 4 .pageRelease
    s.icom.keys = (4, .pagePress) :: [] ∧ s.stationState 4 = .idle ∧ (panel 2104 4 10).pageGroup ≠ 0 ∧
    (∀ q ∈ s.pages.queue, q.id ≠ own) ∧ s.pages.queue.length < 32 ∧
    t.icom.keys = (4, .pageRelease) :: [] ∧ own = 65284 ∧
    t.pages.queue = [livePage 7 .playing] ++ { livePage own .playing with priority := 2 } :: [] ∧
    (withKey stations 4 .volumeUp).icom.keys = (4, if false then .volumeDown else .volumeUp) :: [] ∧
    (panel 2104 4 10).volumeZone = some 10 := by decide +kernel

theorem test_witness_set_station :
    let ws : List Word16 := [word (4 : Fin 32).val, 9999, word (31 : Fin 32).val, word (4 : Fin 32).val,
      optionWord (n := 24) (some 23), 0, 0xF, 0, 99, 0, optionWord (n := 24) none]
    let es : List Word16 := [word (4 : Fin 32).val, 0, 0, 0, 0, 0, 0, 0, 0, 0, 0]
    (asking stations ws).asked 5 ws ∧ (asking stations es).asked 5 es ∧ (9999 : Word16).toNat ≤ 9999 ∧
    zoneWords 0xF 0xF 0 ∧ stations.icom.table[(4 : Fin 32)] ≠ none ∧
    ({ stations with ports := { stations.ports with
      channels := put stations.ports.channels 4 (.station 4) } } : State).ports.channels[(4 : Fin 32)] = .station 4 ∧
    (∃ c ∈ (withCalls stations [localCall .ringing]).icom.calls, (4 : Fin 32) ∈ c.stations) ∧
    stations.stationWith (BitVec.ofNat 14 2107) = some 7 :=
  ⟨asked_of _ _ rfl rfl, asked_of _ _ rfl rfl, by decide, ⟨by decide, by decide +kernel⟩, by decide +kernel⟩

/-- The highest number with the EMERGENCY bit; a WANTED call and an answered one to bridge. -/
theorem test_witness_trunk :
    let ws : List Word16 := [word (9999 + if true then 32768 else 0), word 9999, 7]
    let bs : List Word16 := [word (43 : CallId).toNat, word (63 : Fin 64).val, word (0 : Fin 64).val]
    let s := withCalls stations [{ trunkCall .ringing with answered := true }]
    (asking stations ws).asked 5 ws ∧ stations.callsOk ∧ stations.stationWith (BitVec.ofNat 14 2107) = some 7 ∧
    (asking s bs).asked 5 bs ∧ s.callsOk ∧ { trunkCall .ringing with answered := true } ∈ s.icom.calls ∧
    ({ trunkCall .ringing with answered := true }).id = 43 ∧
    (newCall 44 (.trunkOut 4 300) false 0).parties = .trunkOut 4 300 ∧
    (∀ i ∈ s.ring.inserts, i.slot ≠ 63) ∧ ∀ c ∈ s.icom.calls, c.id ≠ 44 := by
  refine ⟨asked_of _ _ rfl rfl, ?_, by decide +kernel, asked_of _ _ rfl rfl, ?_, by decide +kernel⟩ <;>
    (unfold State.callsOk; decide +kernel)

theorem test_witness_calls_end :
    let c : Call := { trunkCall .ringing with ringTimer := 30 * 48000 }
    let h : Call := { localCall .held with holdTimer := 120 * 48000 }
    let s := withCalls stations [h, c]
    s.callsOk ∧ (asking s [43, 10]).asked 5 [word (43 : CallId).toNat, word 10] ∧
    (asking s [43, 15]).asked 5 [word (43 : CallId).toNat, word 15] ∧
    (asking s [42]).asked 5 [word (42 : CallId).toNat] ∧
    c ∈ s.icom.calls ∧ c.id = 43 ∧ s.ctl.settings.ringTimeout * 48000 ≤ c.ringTimer ∧ h ∈ s.icom.calls ∧
    s.ctl.settings.holdLimit * 48000 ≤ h.holdTimer ∧ ∀ x ∈ s.icom.calls, x.id ≠ 44 :=
  ⟨by unfold State.callsOk; decide +kernel, asked_of _ _ rfl rfl, asked_of _ _ rfl rfl, asked_of _ _ rfl rfl,
    by decide +kernel⟩

/-! ### Witnesses: alarms -/

theorem test_witness_alarm_tables :
    let ws : List Word16 := [word (256 * ((6 : Fin 7).val + 1) + 16 * (15 : Fin 16).val + (if true then 4 else 0) + 2), 0, 1, 2,
      127, 5]
    let cs : List Word16 := [word (3 : Fin 4).val,
      word (AlarmClass.general.rank + 4 * (7 : Fin 8).val + 32 * (7 : Fin 8).val + if true then 256 else 0)]
    (asking locked ws).asked 5 ws ∧ (127 : Word16).toNat ≤ 127 ∧ (asking locked cs).asked 5 cs ∧ cs[1]? = some 511 ∧
    (asking locked [word (7 : Fin 8).val, 0, 0x80]).asked 5 [word (7 : Fin 8).val, 0, 0x80] ∧
    zoneWords 0x800000 0 0x80 ∧
    (0x800000 : ZoneSet) ≠ 0 ∧
    (withRecord locked 4 (requestRecord .crew false)).alarm.records[(4 : Fin 8)] = some (requestRecord .crew false) ∧
    (requestRecord .crew false).sounding = true :=
  ⟨asked_of _ _ rfl rfl, by decide, asked_of _ _ rfl rfl, rfl, asked_of _ _ rfl rfl, ⟨by decide, by decide +kernel⟩,
    by decide +kernel⟩

theorem test_witness_alarm_requests :
    let ws : List Word16 := [word (255 : BitVec 8).toNat, word AlarmClass.general.rank, word (7 : Fin 8).val,
      word (0 : Fin 8).val, optionWord (n := 64) (some 63), word true.toNat, 65535]
    let s := withRecord locked 4 (requestRecord .crew true)
    (asking s ws).asked 5 ws ∧ outOfRange 0x4B ws = false ∧ s.alarm.records[(5 : Fin 8)] = none ∧
    s.alarm.records[(4 : Fin 8)] = some (requestRecord .crew true) ∧ (requestRecord .crew true).origin = .request 9 ∧
    (∀ f : Fin 8, f < 4 → s.alarm.records[f] = none) ∧ (asking s [9]).asked 5 [word (9 : BitVec 8).toNat] ∧
    (asking s [7]).asked 5 [word (7 : Fin 8).val] ∧ (requestRecord .general true).cls = .general :=
  ⟨asked_of _ _ rfl rfl, by decide +kernel, by decide +kernel, by decide +kernel, rfl, by decide +kernel,
    asked_of _ _ rfl rfl, asked_of _ _ rfl rfl, rfl⟩

theorem test_witness_alarm_timers :
    let line (active : Bool) (run : Nat) : State := { locked with alarm := { locked.alarm with
      contacts := put locked.alarm.contacts 3 { Contact.powerOn with active := active, run := run } } }
    let r := { requestRecord .crew true with broadcastTimer := 96000 }
    let q := { newRecord (.remote 12 0) .crew 0 0 none 4096 false with refreshTimer := 288000 }
    let g : Generator := { entry := 4, pattern := 0, step := 0, elapsed := (locked.alarm.stepAt 0 0).duration * 480
                           position := 0, divider := 9 }
    ((line false 2400).alarm.contacts[(3 : Fin 4)]).active = false ∧
    ((line false 2400).alarm.contacts[(3 : Fin 4)]).run = 2400 ∧
    ((line true 48000).alarm.contacts[(3 : Fin 4)]).active = true ∧
    ((line true 48000).alarm.contacts[(3 : Fin 4)]).run = 48000 ∧
    (withRecord locked 4 r).alarm.records[(4 : Fin 8)] = some r ∧ r.broadcast = true ∧ r.broadcastTimer = 96000 ∧
    (withRecord locked 5 q).alarm.records[(5 : Fin 8)] = some q ∧ q.origin = .remote 12 0 ∧ q.refreshTimer = 288000 ∧
    ({ locked with alarm := { locked.alarm with generators := put locked.alarm.generators 1 (some g) } } : State).alarm.generators[
      (1 : Fin 4)] = some g ∧ g.elapsed = (locked.alarm.stepAt g.pattern g.step).duration * 480 := by decide +kernel

/-! ### Witnesses: lines and trackers -/

def stepping (held : Option Nat) (f : FaultRec) : State :=
  withLines locked { locked.lines with
    settings := { top := 31, burst := 2, rest := 1 }, scanner := .stepping 6, stepTimer := 4800, held := held
    windows := put locked.lines.windows 6 { enabled := true, low := 160, high := 480 }
    faults := put locked.lines.faults 6 f }

/-- The requests at their bounds, and the end of a step for each row of R175, with the window of 10.7. -/
theorem test_witness_lines :
    let ws : List Word16 := [word (31 : Fin 32).val, word true.toNat, word 4095, word 4095]
    let vs : List Word16 := [word (31 : Fin 32).val, word 255, 65535]
    (asking locked ws).asked 5 ws ∧ (asking locked vs).asked 5 vs ∧
    (stepping none (.fault .short 2)).lines.faults[(6 : Fin 32)] = .fault .short 2 ∧
    (stepping none .ok).lines.scanner = .stepping 6 ∧ (stepping none .ok).lines.stepTimer = 4800 ∧
    (stepping none .ok).lines.pendingSet = none ∧ (stepping none .ok).lines.discard = false ∧
    (withLines locked { (stepping none .ok).lines with pendingSet := some { top := 3, burst := 0, rest := 0 } }).lines.pendingSet =
      some { top := 3, burst := 0, rest := 0 } ∧
    (stepping (some 4095) (.suspect .short)).lines.held = some 4095 ∧ (stepping (some 159) .ok).lines.held = some 159 ∧
    (stepping (some 480) (.fault .opened 1)).lines.faults[(6 : Fin 32)] = .fault .opened 1 ∧
    (∀ (c : Fin 32), (stepping none (.fault .short 2)).lines.faults[c] = .ok ∨ c = 6) ∧
    (withLines locked { locked.lines with scanner := .resting, restTimer := 0 }).lines.restTimer =
      locked.lines.settings.rest * 48000 := by
  refine ⟨asked_of _ _ rfl rfl, asked_of _ _ rfl rfl, by decide +kernel, ?_⟩
  decide +kernel

theorem test_witness_trackers :
    let ws (p q : Nat) : List Word16 := [word (23 : Fin 24).val, word p, word q, 9, 0, 9, 0, 0, 99]
    let x := { ZoneTracker.powerOn with blockDone := true, k := 2, settings := { ZoneTracker.powerOn.settings with kmax := 6 } }
    (asking locked (ws 1 15)).asked 5 (ws 1 15) ∧ (asking locked (ws 99 0)).asked 5 (ws 99 0) ∧
    (asking locked [word (23 : Fin 24).val]).asked 5 [word (23 : Fin 24).val] ∧
    (withTracker locked x).trackers[(5 : Fin 24)] = x ∧ x.blockDone = true ∧ x.freezeSeen = false ∧ x.freezeTail = 0 ∧
    ({ x with freezeSeen := true } : ZoneTracker).freezeSeen = true ∧
    0 < ({ x with freezeTail := 1 } : ZoneTracker).freezeTail :=
  ⟨asked_of _ _ rfl rfl, asked_of _ _ rfl rfl, asked_of _ _ rfl rfl, by decide +kernel⟩

/-- A computation with a covered and an uncovered zone, a duck factor below, at and above its target, and a factor Ce
below, at and above that of its step. -/
theorem test_witness_computation :
    let s : State := ask .alarmStart [9, 3, 2, 0, 255, 0, 0] { locked with
      alarm := { locked.alarm with groups := put locked.alarm.groups 2 2 }
      mix := { locked.mix with duck := (locked.mix.duck.set 3 5).set 4 20000 }
      trackers := (locked.trackers.set 3 { ZoneTracker.powerOn with k := 1 }).set 4 { ZoneTracker.powerOn with ce := 20000 } }
    let b := s.begun
    (b.winner 1).map (·.1) = some 4 ∧ (b.alarm.generators[(0 : Fin 4)]).map (·.entry) = some 4 ∧ b.winner 3 = none ∧
    (b.duckTarget 3, b.mix.duck[(3 : Fin 24)]) = (16384, 5) ∧
    (b.duckTarget 4, b.mix.duck[(4 : Fin 24)]) = (16384, 20000) ∧
    (b.duckTarget 5, b.mix.duck[(5 : Fin 24)]) = (16384, 16384) ∧
    (Config.compensation (b.trackers[(3 : Fin 24)]).k, (b.trackers[(3 : Fin 24)]).ce) = (19472, 16384) ∧
    (Config.compensation (b.trackers[(4 : Fin 24)]).k, (b.trackers[(4 : Fin 24)]).ce) = (16384, 20000) := by
  decide +kernel

/-! ### Effects, from the worked sequences of the manual -/

/-- 1.2.1: one bad cycle, then the second good one; the fourth bad one and the number of the cycle generated next. -/
theorem test_receiver :
    (let t := run (.cycleArrival 0 { badCycle with number := 101, pattern := 0 }) locked
     t.ring.rx = .suspect ∧ t.ring.missCount = 1 ∧ t.ring.goodRun = 0 ∧ t.tap 3 = -8388608) ∧
    (let t := run (.cycleArrival 0 goodCycle) (withRx locked .suspect 1 0)
     t.ring.rx = .locked ∧ t.ring.goodRun = 2 ∧ t.ring.missCount = 0) ∧
    (let t := run (.ringLost 0 { goodCycle with pattern := 0 }) (withRx locked .suspect 0 3)
     t.ring.rx = .hunt ∧ t.ring.missCount = 4 ∧ posted t = [(.ringLost, 0, 0)] ∧ t.ring.cycleNumber = 101) ∧
    (let t := run (.ringRegained 0 goodCycle) (withRx locked .hunt 7 0)
     t.ring.rx = .locked ∧ posted t = [(.ringRegained, 0, 0)] ∧ t.ring.cycleNumber = 101) := by decide +kernel

/-- 1.6.1 at node 5: handed on with hop 1; back at its origin, removed. -/
theorem test_alert_word :
    (let t := run (.alertWordArrival (alertWord 1 12 0 3 0 0)) locked
     t.ring.forward.cycle.alert = alertWord 1 12 0 3 0 1 ∧ posted t = [(.alarmBegun, 4, 3)]) ∧
    (let t := run (.alertWordArrival (alertWord 1 5 0 3 0 2)) locked
     t.ring.forward.cycle.alert = 0 ∧ t.ring.forward.alertFree = true ∧ posted t = []) := by decide +kernel

/-- 1.6.1, step 2, at node 5. -/
theorem test_alert_send :
    let w : SendWord := { entry := 0, on := true, group := 0, cls := .general, pattern := 0, fresh := false }
    let t := run .alertSend { locked with ring := { locked.ring with sendList := [w] } }
    t.ring.forward.cycle.alert = alertWord 1 5 0 3 0 0 ∧ t.ring.sendList = [] := by decide +kernel

/-- 2.4.1: PARAM words, a CLOSE that is replaced by the idle word, the ECHO in the next idle slot; the settings hold
from the cycle after (R38). -/
theorem test_transaction :
    let t := run (.setNode 5 0) (List.foldl (fun s d => run (.paramWord 5 d) s) locked [1, 2107, 20, 60, 8192])
    t.ctl.settings = locked.ctl.settings ∧ (closePeriod t).ctl.settings =
      { writeMode := .staged, emergency := 2107, ringTimeout := 20, holdLimit := 60, callGain := 8192 } ∧
    t.ctl.buffer.words = [] ∧ t.ring.forward.cycle.control = 0 ∧ answer t = some (.ok, []) ∧
    (run (.sendReplyWord 0 0) t).ring.forward.cycle.control = controlWord .echo 5 0x0600 ∧
    (run (.sendReplyWord 0 0) t).ctl.reply = none := by decide +kernel

/-- Sixteen events posted, with subjects 1 to 16. -/
def sixteen : State :=
  (List.range 16).foldl (fun s k => s.withEvent .pageStarted (k + 1) 0) locked

/-- 2.6.1: the seventeenth and eighteenth event, and the first read. -/
theorem test_read_events :
    let t := ask .readEvents [] ((sixteen.withEvent .pageStarted 17 0).withEvent .pageStarted 18 0)
    (posted t).map (·.2.1) = [8, 9, 10, 11, 12, 13, 14, 15, 16, 18] ∧ t.ctl.catchRec = none ∧ t.ctl.overflow = false ∧
    (answer t).map (fun r => (r.2.length, r.2.headD 0, r.2.getD 2 0)) = some (15, 7 * 8192 + 10 * 256 + 128, 1) := by
  decide +kernel

/-- 1.5.1: an UNNAMED node takes the address and answers with the identification words. -/
theorem test_enroll :
    let t := run (.enroll 0 0) (asking { locked with ring := { locked.ring with address := 0 } } [6])
    t.ring.address = 6 ∧ answer t = some (.ok, [0x480, 3, 24, 256, 32, 256, 4096, 32, 16, 32, 8, 0x404]) := by
  decide +kernel

/-- R39: the kinds of records that a soft reset ends, counted in its event. -/
theorem test_reset_node :
    let t := ask .resetNode [] (withCalls (withPages locked [livePage 7 .playing, clipPage 8]) [localCall .connected])
    posted t = [(.nodeReset, 2 * 256 + 1, 0)] ∧ t.pages.queue = [] ∧ t.icom.calls = [] ∧ answer t = some (.ok, []) := by
  decide +kernel

/-- 3.5.1. -/
theorem test_sense_positions :
    let a := ask .setInput [20, 0, 266] locked
    let b := ask .setInput [21, 1, 267] a
    let c := ask .setInput [20, 2, 268] b
    answer a = some (.ok, []) ∧ answer (ask .setInput [21, 1, 266] a) = some (.conflict, []) ∧
    answer b = some (.ok, []) ∧
    answer c = some (.ok, []) ∧ c.ports.inputs[(20 : Fin 32)] = { trim := 2, role := .sense 6 0 } ∧
    c.ports.inputs[(21 : Fin 32)] = { trim := 1, role := .sense 5 1 } := by decide +kernel

/-- 4.9.5, with a bank of 255 routes. -/
theorem test_route_bank :
    let fill : List Route := (List.range 254).map (fun k =>
      { zone := Fin.ofNat 24 (k / 32), source := .localInput (Fin.ofNat 32 k), gain := 1, role := .programme })
    let bank : Bank := { Bank.powerOn with routes := { zone := 7, source := .feed 0, gain := 16384, role := .showAudio } :: fill }
    let s : State := { locked with mix := { locked.mix with bankA := bank } }
    let a := ask .loadRoute [7, 12, 10000, 0] s
    let c := ask .loadRoute [7, 512, 12000, 0] a
    answer a = some (.ok, []) ∧ a.mix.bankA.routes.length = 256 ∧
    answer (ask .loadRoute [7, 13, 10000, 0] a) = some (.full, []) ∧ answer c = some (.ok, []) ∧
    c.mix.bankA.routes.length = 256 ∧
    { zone := 7, source := .feed 0, gain := 12000, role := .programme } ∈ c.mix.bankA.routes ∧
    answer (ask .clearRoute [7, 40] c) = some (.notFound, []) := by decide +kernel

/-- 5.2.2 at node 10: the TAKE is taken, and starts on its numbered cycle. -/
theorem test_take :
    let s := run (.take 0 0) (asking locked [960, 20000])
    s.scene.state = .waiting ∧ s.ctl.reply = none ∧
    (let t := run .takeStart (run (.cycleArrival 0 { goodCycle with number := 20000 })
        { s with ring := { s.ring with prevNumber := 19999 } })
     t.scene.state = .crossfading ∧ t.scene.step = 1 ∧ t.scene.active = .b) ∧
    (run .takeStart (run (.cycleArrival 0 goodCycle) s)).scene.state = .waiting := by decide +kernel

/-- 5.3.1, computations 1,479 and 60,479. -/
theorem test_feed_pair :
    let x : Feed := { Feed.powerOn 0 with main := 20, backup := 21, delay := 480, selectedEmpty := 480, autoRevert := true }
    let s := withFeed locked x
    let heard : State := { s with ring := { s.ring with taps := put s.ring.taps 21 5 } }
    (let t := run (.feedChangeover 0) heard
     (t.feeds[(0 : Fin 4)]).state = .onBackup ∧ posted t = [(.feedChanged, 0, 2)]) ∧
    (let t := run (.feedBothLost 0) (withFeed locked { x with bothEmpty := 480 })
     (t.feeds[(0 : Fin 4)]).state = .bothLost ∧ posted t = [(.feedChanged, 0, 3)]) := by decide +kernel

/-- 6.2.2: the end of the take at computation 1,979. -/
theorem test_capture_end :
    let c : Capture := { Capture.idle with phase := .recording, clip := 2, stored := 1880, heard := true, emptyRun := 480 }
    let s := withCapture (withEntry locked 2 { readyClip with region := 2000, state := .capturing }) c
    (run .captureEnd s).clips.capture.phase = .closing ∧
    (run .captureEnd s).clips.capture.used = 1400 := by decide +kernel

/-- 6.5.1: periods 1 and 2 of the priming of a chime of 14 words. -/
theorem test_burst :
    let x : Player := { Player.idle with state := .priming, sequence := [3, 2], hasChime := true, fetch := some (0, 0) }
    let chime : ClipEntry := { readyClip with start := 0, region := 14, used := 14 }
    let s := run .burstGrant (withPlayer (withEntry (withEntry locked 2 readyClip) 3 chime) x)
    s.clips.burst.map (·.kind) = some (.playerRead 0 0 0 14 false) ∧
    (let t := run .burstDone (withBurst s (.playerRead 0 0 0 14 false) 2)
     ((t.clips.players[(0 : Fin 4)]).fifo.length, (t.clips.players[(0 : Fin 4)]).fetch) = (14, some (1, 0))) := by
  decide +kernel

/-- A player of one page that plays, and none else. -/
def pageOne (s : State) (id : Nat) : Option (PageState × Nat × Nat) :=
  (s.pages.queue.find? (fun p => p.id.toNat == id)).map (fun p => (p.state, p.granted.toNat, p.joining.toNat))

/-- 7.11, event 1. -/
theorem test_three_pages :
    let s := withEntry (withEntry locked 40 readyClip) 41 readyClip
    let a := closePeriod (ask .queuePage [101, 5 + 16 + 3 * 256, 513, 65535, 40 * 256, 0, 0, 0, 7, 0, 100, 0, 0, 16384] s)
    pageOne a 101 = some (.playing, 7, 0) ∧ posted a = [(.pageStarted, 101, 0)] ∧ answer a = some (.ok, []) := by
  decide +kernel

/-- 7.11, events 2 and 3, from the state after event 1 and in one period: the passes run when it closes (R112). -/
theorem test_two_more_pages :
    let p1 : Page := { clipPage 101 with priority := 5, zones := 7, granted := 7, whole := false, phase := .audio
                                         restartIn := none }
    let s := withPages (withEntry (withEntry locked 2 readyClip) 41 readyClip) [p1]
    let b := ask .queuePage [102, 9, 9, 65535, 0, 0, 0, 0, 12, 0, 0, 0, 20, 16384] s
    let c := closePeriod (ask .queuePage [103, 9 + 256, 513, 65535, 41 * 256, 0, 0, 0, 24, 0, 0, 0, 0, 16384] b)
    c.pages.queue.map (·.id.toNat) = [102, 103, 101] ∧ b.pages.passes = 1 ∧ pageOne b 101 = some (.playing, 7, 0) ∧
    pageOne c 101 = some (.playing, 3, 0) ∧ pageOne c 102 = some (.playing, 12, 0) ∧
    pageOne c 103 = some (.waiting, 0, 0) ∧ posted c = [(.pageStarted, 102, 0)] := by decide +kernel

/-- The pages of 7.11 after event 3, the second at its play limit. -/
def three : State :=
  let p1 : Page := { clipPage 101 with
    priority := 5, zones := 7, granted := 3, whole := false, player := some 0, phase := .audio, restartIn := none }
  let p2 : Page := { livePage 102 .playing with
    priority := 9, zones := 12, granted := 12, whole := true, playLimit := 20, playTimer := 960000 }
  let p3 : Page := { clipPage 103 with priority := 9, zones := 24, granted := 0, whole := true, state := .waiting
                                       player := none, arrival := 2, restartIn := none }
  withPages (withEntry locked 2 readyClip) [p2, p3, p1]

/-- 7.11, event 5, with no zone covered. -/
theorem test_page_end :
    let t := closePeriod three
    pageOne t 101 = some (.playing, 3, 4) ∧ pageOne t 102 = none ∧ pageOne t 103 = some (.playing, 24, 0) ∧
    posted t = [(.pageEnded, 102, 4), (.pageStarted, 103, 0)] ∧ t.pages.queue.map (·.player) = [some 1, some 0] ∧
    (run (.pageTimedOut 102) three).pages.passes = 1 ∧ pageOne (run (.pageTimedOut 102) three) 103 = some (.waiting, 0, 0) := by
  decide +kernel

/-- 8.11: CALL 2107 and ANSWER; the hold by the muster; the end. -/
theorem test_local_call :
    let s : State := { stations with icom := { stations.icom with lastCall := 41 } }
    let a := run (.call 4 2107) (withKey s 4 (.call 2107))
    let b := run (.answer 7) (withKey a 7 .answer)
    a.icom.calls = [localCall .ringing] ∧ a.stationState 4 = .calling ∧ a.stationState 7 = .ringing ∧
    b.icom.calls = [localCall .connected] ∧ b.stationState 7 = .talking ∧
    posted (run (.hangUp 4) (withKey b 4 .hangUp)) = [(.callEnded, 42, 1)] := by decide +kernel

theorem test_muster_holds :
    let s := withCalls { stations with alarm := { stations.alarm with
      groups := put stations.alarm.groups 2 0xF800 } } [localCall .connected]
    let t := ask .alarmStart [9, 3, 2, 0, 255, 0, 0] s
    t.icom.calls.map (·.state) = [.held] ∧ posted t = [(.alarmBegun, 4, 3)] ∧
    (let u := ask .alarmStop [9] { t with ctl := { t.ctl with events := [] } }
     u.icom.calls.map (·.state) = [.connected] ∧ posted u = [(.alarmEnded, 4, 2)]) := by decide +kernel

/-- 8.11, its last paragraph, from station 12. -/
theorem test_emergency :
    let s : State := { withCalls (withMode stations .direct) [localCall .connected] with
      icom := { stations.icom with
        table := put stations.icom.table 12 (some (panel 2112 12 0))
        presence := put stations.icom.presence 12 { present := true, misses := 0 }
        calls := [localCall .connected], lastCall := 42 } }
    let t := run (.emergency 12) (withKey s 12 .emergency)
    posted t = [(.callEnded, 42, 4)] ∧ t.icom.calls = [newCall 43 (.loc 12 7) true 0] ∧ t.stationState 4 = .idle ∧
    t.stationState 7 = .ringing := by decide +kernel

/-- A trunk call offered, answered and bridged (R139, R137, R140). -/
theorem test_trunk_call :
    let a := ask .offerCall [2107, 300, 7] stations
    let b := run (.answer 7) (withKey a 7 .answer)
    let c := ask .bridgeCall [1, 40, 41] b
    answer a = some (.ok, [1]) ∧ posted b = [(.callAnswered, 1, 0)] ∧ answer c = some (.ok, []) ∧
    c.ring.inserts.map (fun i => (i.slot, i.source)) = [(40, .trunkCall 1)] ∧
    c.icom.calls.map (·.state) = [.connected] ∧
    answer (ask .bridgeCall [1, 40, 41] a) = some (.notAllowed, []) := by decide +kernel

/-- The records of 9.6.1. -/
def displaced : State :=
  let rec1 (o : AlarmOrigin) (c : AlarmClass) (g : Fin 8) : Option AlarmRec := some (newRecord o c g 0 none 4096 false)
  { locked with alarm := { locked.alarm with
    groups := ((((((locked.alarm.groups.set 1 0xFF).set 2 0xFF0).set 3 0xF000).set 4 0xF0000).set 5 0xF00000).set 6 0xF00000)
    records := ((((locked.alarm.records.set 0 (rec1 (.contact 0) .localArea 1)).set 4 (rec1 (.request 7) .test 5)).set 5
      (rec1 (.request 8) .crew 2)).set 6 (rec1 (.remote 20 3) .localArea 3)).set 7 (rec1 (.remote 21 4) .localArea 4)
    startOrder := [0, 5, 6, 7, 4] } }

/-- 9.6.1. -/
theorem test_displacement :
    let a := run (.alertWordArrival (alertWord 1 30 6 3 0 0)) displaced
    let b := run (.alertWordArrival (alertWord 1 31 2 2 0 0)) a
    let c := run (.alertWordArrival (alertWord 1 32 3 1 0 0)) b
    posted a = [(.alarmEnded, 4, 5), (.alarmBegun, 4, 3)] ∧
    posted c = [(.alarmEnded, 4, 5), (.alarmBegun, 4, 3), (.alarmEnded, 7, 5), (.alarmBegun, 7, 2)] ∧
    c.alarm.startOrder = [0, 5, 6, 4, 7] := by decide +kernel

/-- 9.7.1: the generators before and after the first word, and that the entry of the second holds none. -/
theorem test_generators :
    let before : State := { displaced with alarm := { displaced.alarm with
      generators := Vector.ofFn (fun i : Fin 4 => some { entry := [0, 5, 6, 7].getD i.val 0, pattern := 0, step := 0
                                                         elapsed := 9, position := 0, divider := 9 })
      coverage := Vector.ofFn (fun z : Fin 24 => some (([0, 5, 5, 6, 7, 4] : List (Fin 8)).getD (z.val / 4) 0)) } }
    let a := run (.alertWordArrival (alertWord 1 30 6 3 0 0)) before
    let b := run (.alertWordArrival (alertWord 1 31 2 2 0 0)) a
    a.alarm.generators.toList.map (·.map (·.entry)) = [some 0, some 5, some 6, some 4] ∧
    a.alarm.generators.toList.map (·.map (·.elapsed)) = [some 9, some 9, some 9, some 0] ∧
    b.alarm.generators.toList.map (·.map (·.entry)) = [some 0, some 5, some 6, some 4] ∧
    b.alarm.coverage[(16 : Fin 24)] = none ∧ b.alarm.coverage[(4 : Fin 24)] = some 5 := by decide +kernel

/-- Contact line 0, ACTIVE (R156, R157). -/
theorem test_contact :
    let s : State := { locked with alarm := { locked.alarm with
      contacts := put locked.alarm.contacts 0 { Contact.powerOn with run := 2400 } } }
    let t := run (.contactActivate 0) s
    posted t = [(.alarmBegun, 0, 3)] ∧ t.ring.sendList.map (fun w => (w.entry, w.on)) = [(0, true)] ∧
    t.alarm.coverage[(23 : Fin 24)] = some 0 := by decide +kernel

/-- Contact line 0, IDLE after one second, with a record that broadcasts and with one that does not (R155, R156). -/
theorem test_contact_clear :
    let s (broadcast : Bool) : State := withRecord { locked with alarm := { locked.alarm with
      contacts := put locked.alarm.contacts 0 { Contact.powerOn with active := true, run := 48000 } } } 0
        (newRecord (.contact 0) .general 0 0 none 4096 broadcast)
    let t (broadcast : Bool) : State := run (.contactClear 0) (s broadcast)
    ((s true).alarm.records[(0 : Fin 8)]).isSome = true ∧ (t true).alarm.startOrder = [] ∧
    (t true).ring.sendList.map (fun w => (w.entry, w.on)) = [(0, false)] ∧ (t false).ring.sendList = [] ∧
    posted (t false) = [(.alarmEnded, 0, 1)] := by decide +kernel

/-- The state after a step of channel 6 whose window is 16 to 64. -/
def afterStep (held : Option Nat) (f : FaultRec) : State :=
  let s := stepping held f
  run .scanStepEnd
    (withLines s { s.lines with windows := put s.lines.windows 6 { enabled := true, low := 16, high := 64 } })

/-- 10.7, steps 2, 3, 6, 7 and 10, with channel 6 in the place of channel 5. -/
theorem test_line_fault :
    let fault (s : State) : FaultRec := s.lines.faults[(6 : Fin 32)]
    let a := afterStep (some 6) .ok
    let b := afterStep (some 5) (.suspect .short)
    let c := afterStep (some 33) (.fault .short 0)
    let d := afterStep none (.fault .short 1)
    let e := afterStep (some 31) (.fault .noReply 2)
    fault a = .suspect .short ∧ posted a = [] ∧ fault b = .fault .short 0 ∧ posted b = [(.lineFault, 6, 1)] ∧
    fault c = .fault .short 1 ∧ fault d = .fault .noReply 0 ∧ posted d = [(.lineFault, 6, 3)] ∧ fault e = .ok ∧
    posted e = [(.lineRestored, 6, 0)] := by decide +kernel

/-- 11.8.2, block 3, as one block end of zone 5. -/
theorem test_tracker_block :
    let bin (b : Nat) : Vector Nat 16 := Vector.ofFn (fun i : Fin 16 => if i.val = b then 480 else 0)
    let x : ZoneTracker := { ZoneTracker.powerOn with
      settings := { percentile := 50, quiet := 3, slope := 2, kmin := 0, kmax := 6, rise := 3, fall := 50, seed := 0 }
      k := 2, up := 2, hist0 := bin 5, hist1 := bin 9, position := 480, blockDone := true }
    let s := withTracker (ask .setInput [21, 0, 267] (ask .setInput [20, 0, 266] locked)) x
    let t := run (.trackerBlockEnd 5) s
    240 ≤ ((bin 5).toList.take 6).sum ∧ ((bin 5).toList.take 5).sum < 240 ∧ 240 ≤ ((bin 9).toList.take 10).sum ∧
    ((bin 9).toList.take 9).sum < 240 ∧ (t.trackers[(5 : Fin 24)]).k = 3 ∧ (t.trackers[(5 : Fin 24)]).up = 0 ∧
    (t.trackers[(5 : Fin 24)]).last = some { n0 := 5, n1 := 9, n := 5, kdes := 4 } := by decide +kernel

/-- A zone fed by a slot of 1,000,000 at unity: computation k is in output frame k+2 (R2, R43, R62). -/
theorem test_cycle_period :
    let quiet : Instr := .cyclePeriod (Vector.replicate 32 0) 15
    let s := run (.cycleArrival 0 { goodCycle with slots := Vector.replicate 64 1000000 })
      (ask .loadRoute [3, 5, 16384, 0] locked)
    let t := run quiet s
    let v := run quiet (run quiet t)
    t.recent.zones[(3 : Fin 24)] = 1000000 ∧ t.recent.zones[(4 : Fin 24)] = 0 ∧
    t.ports.frameOut.words[(3 : Fin 32)] = 0 ∧ v.ports.frameOut.words[(3 : Fin 32)] = 1000000 := by
  decide +kernel

/-! ### Witnesses of the clauses on periods, passes, coverage and the search -/

/-- The same invariant in the form that evaluation decides. -/
theorem alarmOk_of (s : State)
    (h : s.alarm.startOrder.Nodup ∧ (∀ e : Fin 8, e ∈ s.alarm.startOrder ↔ s.alarm.records[e] ≠ none) ∧
      (∀ (z : Fin 24) (e : Fin 8), s.alarm.coverage[z] = some e → (s.alarm.records[e]).any (·.sounding) = true) ∧
      (∀ i : Fin 4, (s.alarm.generators[i]).all (fun g => (s.alarm.records[g.entry]).isSome) = true) ∧
      ∀ i j : Fin 4, i ≠ j → s.alarm.generators[i] = none ∨
        (s.alarm.generators[i]).map (·.entry) ≠ (s.alarm.generators[j]).map (·.entry)) : s.alarmOk := by
  obtain ⟨h1, h2, h3, h4, h5⟩ := h
  refine ⟨h1, h2, fun z e k => ?_, fun i g k => ?_, fun i j g x k l m => ?_⟩
  · have := h3 z e k
    cases r : s.alarm.records[e] with
    | none => simp [r] at this
    | some x => exact ⟨x, rfl, by simpa [r] using this⟩
  · have := h4 i
    rw [k] at this
    simpa [Option.isSome_iff_ne_none] using this
  · by_cases e : i = j
    · exact e
    · have := h5 i j e
      rw [k, l] at this
      simp [m] at this

theorem recordsOk_of (s : State) (h : s.alarmOk) : s.recordsOk := ⟨h.1, h.2.1, h.2.2.2.2⟩

/-- No CONNECTED call is under hold, in the form that evaluation decides. -/
theorem holdOk_of (s : State) (h : ∀ c ∈ s.icom.calls, c.state = .connected → s.underHold c = false) : s.holdOk :=
  fun c hc hs hh => by simpa [h c hc hs] using (underHold_iff s c).mpr hh

/-- With every zone NORMAL, held zones that are not covered are free to their holders. -/
theorem zonesFree_of (s : State) (h : ∀ p ∈ s.pages.queue, ∀ z : Fin 24, p.granted.getLsbD z.val = true →
    s.covered z = false ∧ (s.zoneFields z).mode = .normal) : s.zonesFree :=
  fun p hp z hz => ⟨(h p hp z hz).1, fun _ x hx => by rw [(h p hp z hz).2] at hx; cases hx⟩

/-- Five SOUNDING records that win zones, the TEST record fifth, with coverage and generators formed. -/
def covered5 : State := { displaced with alarm := displaced.alarm.recompute }

theorem test_witness_alarms_and_zones :
    let s := withPages locked [livePage 7 .playing, clipPage 8]
    displaced.alarmOk ∧ covered5.alarmOk ∧ covered5.callsOk ∧ (∃ t, step covered5 = .next t) ∧ s.zonesFree ∧ s.pagesOk ∧
    ∃ t, step { s with pending := [.gapEnd 8] } = .next t := by
  refine ⟨alarmOk_of _ (by decide +kernel), alarmOk_of _ (by decide +kernel), ?_, ⟨_, rfl⟩,
    zonesFree_of _ (by decide +kernel), ?_, _, rfl⟩
  · unfold State.callsOk; decide +kernel
  · unfold State.pagesOk; decide +kernel

/-- The search of 1.2 (R4): a failed candidate sends it back, and cycles of another alignment are kept for it. -/
theorem test_search :
    let cycle (n : BitVec 16) : RingCycle := { goodCycle with number := n }
    let hunt : State := { State.reset with ring := { State.reset.ring with address := 5 } }
    let arrive (l : List (Fin 1626 × BitVec 16)) : State :=
      l.foldl (fun s x => run (.cycleArrival x.1 (cycle x.2)) s) hunt
    (let r := (arrive [(0, 100), (0, 101), (0, 500), (0, 501)]).ring
     (r.goodRun, r.alignment, r.prevNumber) = (2, 0, 501)) ∧
    (let r := (arrive [(0, 100), (7, 40), (0, 101), (7, 41), (0, 7)]).ring
     (r.goodRun, r.alignment, r.prevNumber) = (2, 7, 41)) := by decide +kernel

/-- A failed candidate with another cycle that can be a candidate, and one with none. -/
theorem test_witness_search :
    let x : Seen := { align := 0, pattern := 0x3A97, number := 100 }
    let y : Seen := { x with number := 500 }
    let s : State := withRx { locked with ring := { locked.ring with stream := [x, x] } } .hunt 1 0
    s.ring.rx = .hunt ∧ s.ring.goodRun = 1 ∧ (s.ring.stream ++ [y]).tail = [x] ++ y :: [] ∧ y.candidate [] ∧
    ¬ x.candidate [y] ∧ ¬ Seen.candidate { x with pattern := 0 } [] ∧ (7 : Fin 1626) ≠ s.ring.alignment := by
  unfold Seen.candidate Seen.run
  decide +kernel

/-- Words of a node and group that hold a record, and words that need a shared entry with none free: the latest started
record of the lowest class is a TEST record in entry 4. -/
theorem test_witness_displacement :
    let w (kind origin group cls : Nat) : BitVec 26 := alertWord (BitVec.ofNat 2 kind) (BitVec.ofNat 6 origin)
      (BitVec.ofNat 3 group) (BitVec.ofNat 2 cls) 0 0
    displaced.ring.rx = .locked ∧ displaced.alertAccepted (w 1 20 3 2) = true ∧
    displaced.alarm.remoteEntry 20 3 = some 6 ∧ displaced.alertAccepted (w 2 20 3 2) = true ∧
    displaced.alertAccepted (w 1 30 6 3) = true ∧ displaced.alertAccepted (w 1 30 6 0) = true ∧
    displaced.alarm.remoteEntry 30 6 = none ∧
    (∀ f : Fin 8, 4 ≤ f.val → displaced.alarm.records[f] ≠ none) ∧
    (∀ f : Fin 8, 4 ≤ f.val → f ≠ 4 → displaced.alarm.above f 4) ∧ locked.alarm.freeShared = some 4 := by
  refine ⟨by decide +kernel, by decide +kernel, by decide +kernel, by decide +kernel, by decide +kernel,
    by decide +kernel, by decide +kernel, by decide +kernel, fun f hf hne => ?_, by decide +kernel⟩
  have : f = 5 ∨ f = 6 ∨ f = 7 := by omega
  rcases this with rfl | rfl | rfl <;> exact ⟨_, _, rfl, rfl, by decide +kernel⟩

/-- Cycle periods with a cycle arrived in LOCKED, in SUSPECT and with none, an insert, and a channel in FAULT(SHORT). -/
theorem test_witness_sending :
    let i : Insert := { slot := 3, source := .zone 2, clash := 0, reported := false }
    (run (.cycleArrival 0 goodCycle) locked).ring.arrived = some goodCycle ∧
    (run (.cycleArrival 0 goodCycle) locked).ring.rx = .locked ∧
    (run (.cycleArrival 0 badCycle) locked).ring.arrived = some badCycle ∧
    (run (.cycleArrival 0 badCycle) locked).ring.rx = .suspect ∧ State.reset.ring.arrived = none ∧
    i ∈ (withInserts locked [i]).ring.inserts ∧
    (∀ j ∈ (withInserts locked [i]).ring.inserts, j.slot = i.slot → j = i) ∧
    (∀ j ∈ (withInserts locked [i]).ring.inserts, j.slot ≠ 4) ∧
    (stepping none (.fault .short 0)).lines.faults[(6 : Fin 32)] = .fault .short 0 := by decide +kernel

/-- The fifth-ranked winner holds no generator, and entry 5, a CREW record, is the first-ranked. -/
theorem test_witness_shared_generator :
    let b := covered5.begun
    b.winner 20 = (displaced.alarm.records[(4 : Fin 8)]).map (fun r => ((4 : Fin 8), r)) ∧ (b.winner 20).isSome = true ∧
    (∀ j : Fin 4, (b.alarm.generators[j]).all (fun g => g.entry != 4) = true) ∧ b.alarm.coverage[(8 : Fin 24)] = some 5 ∧
    (∀ f : Fin 8, f ≠ 5 → (∃ z : Fin 24, b.alarm.coverage[z] = some f) →
      ((b.alarm.records[f]).map (·.cls.rank)).getD 9 < 2) ∧
    (∃ i : Fin 4, (b.alarm.generators[i]).map (·.entry) = some 5) ∧
    (b.alarm.groups[(5 : Fin 8)]).getLsbD 20 = true := by decide +kernel

/-- Speakers: two stations in a CONNECTED call, one that listens to a covered zone and one that a page breaks in on. -/
theorem test_witness_speakers :
    let b := (withPages (withCalls stations [localCall .connected]) [{ livePage 7 .playing with
      priority := 5, zones := 0xC00, granted := 0xC00 }]).begun
    let g : State := (ask .alarmStart [9, 3, 2, 0, 255, 0, 0] { stations with
      alarm := { stations.alarm with groups := put stations.alarm.groups 2 0xC00 } }).begun
    b.icom.table[(4 : Fin 32)] = some (panel 2104 4 10) ∧ b.icom.table[(5 : Fin 32)] = none ∧
    b.stationState 4 = .talking ∧ b.callOf 4 = some (localCall .connected) ∧ b.covered 10 = false ∧
    (b.holder 10).any (fun q => q.audible && decide (5 ≤ q.priority)) = true ∧
    ((withCalls stations [localCall .connected]).begun.holder 10).isNone = true ∧
    (withCalls stations [localCall .held]).begun.stationState 4 = .held ∧ g.covered 10 = true ∧
    (g.alarm.records[(4 : Fin 8)]).map (fun r => (r.sounding, r.cls)) = some (true, .general) ∧
    (g.alarm.generators[(0 : Fin 4)]).map (·.entry) = some 4 ∧ (g.alarm.groups[(2 : Fin 8)]).getLsbD 10 = true := by
  decide +kernel

/-- A waiting TAKE whose number arrives, and one not yet due when the receiver leaves LOCKED. -/
theorem test_witness_take_waits :
    let s := withScene locked { locked.scene with state := .waiting, target := some 101, start := .no }
    locked.ring.reads 0 goodCycle = true ∧ s.scene.target = some goodCycle.number ∧
    (run (.cycleArrival 0 goodCycle) s).scene.start = .now ∧
    (run (.cycleArrival 0 { badCycle with pattern := 0 }) s).scene.start = .next ∧
    (run (.cyclePeriod (Vector.replicate 32 0) 15) (run (.cycleArrival 0 { badCycle with pattern := 0 }) s)).scene.start =
      .now := by decide +kernel

/-- A recording that ends with the word at its used length still in the capture buffer, and one with that word written;
a granted write buffer; a burst of a restarted player, and one of a clip whose honour-marker is set. -/
theorem test_witness_clip_events :
    let c : Capture := { Capture.idle with phase := .recording, clip := 2, stored := 490, heard := true, emptyRun := 480 }
    let s := withCapture (withEntry locked 2 { readyClip with state := .capturing }) c
    let x : Player := { Player.idle with state := .priming, sequence := [2], fetch := some (0, 0) }
    let b : WriteBuffer := { clip := 2, address := 1000, words := [7], granted := false }
    let w : State := { locked with clips := { locked.clips with writeBuffer := some b } }
    s.clips.directory[s.clips.capture.clip] = some { readyClip with state := .capturing } ∧ c.stored ≠ readyClip.region ∧
    c.emptyRun = 480 ∧ 480 ≤ c.stored ∧ c.buffer.any (fun y => y.1 == 1000 + (490 - 480)) = false ∧
    ({ c with buffer := [(1010, 3)] } : Capture).buffer.any (fun y => y.1 == 1000 + (490 - 480)) = true ∧
    (run .captureEnd s).clips.capture.buffer = [(1010, 0x8000)] ∧ w.clips.burst = none ∧
    (∀ p : Fin 4, asks w p = false) ∧ w.clips.capture.buffer = [] ∧ w.clips.writeBuffer = some b ∧
    (withBurst locked (.bufferWrite [(5, 1)]) 2).clips.burst = some { kind := .bufferWrite [(5, 1)], elapsed := 2 } ∧
    (withBurst locked (.playerRead 0 0 0 64 true) 2).clips.burst =
      some { kind := .playerRead 0 0 0 64 true, elapsed := 2 } ∧
    (let t := withBurst (withPlayer (withEntry locked 2 { readyClip with honour := true }) x) (.playerRead 0 0 0 64 false) 2
     t.clips.burst = some { kind := .playerRead 0 0 0 64 false, elapsed := 2 } ∧
     (t.clips.players[(0 : Fin 4)]).sequence[0]?.bind (fun d => t.clips.directory[d]) =
       some { readyClip with honour := true } ∧
     ((run .burstDone t).clips.players[(0 : Fin 4)]).fifo.length = 64) := by decide +kernel

/-- The end of a live page's chime, whose player has no more to play; and one that has not ended. -/
theorem test_live_chime_end :
    let p : Page := { livePage 7 .playing with player := some 0, phase := .chime, chime := some 2 }
    let s := withPages (withPlayer locked { Player.idle with state := .playing, seqEnd := .due, sequence := [2] }) [p]
    let t := run (.sequenceEnd 0) s
    s.pagesOk ∧ s.playerPage 0 = some p ∧ p.clip = false ∧ (s.clips.players[(0 : Fin 4)]).seqEnd = .due ∧
    t.pages.queue.map (fun q => (q.phase, q.player)) = [(.audio, none)] ∧ t.pages.passes = 1 ∧
    (t.clips.players[(0 : Fin 4)]).releasing = true ∧ (t.begun.clips.players[(0 : Fin 4)]).state = .idle := by
  unfold State.pagesOk; decide +kernel

/-- Pairs in BOTH LOST whose main or backup slot is present, and both empty; a capture in each phase; players. -/
theorem test_witness_media_periods :
    let lost := withFeed locked { Feed.powerOn 0 with state := .bothLost }
    let arrived (slot : Fin 64) (s : State) : State :=
      (run (.cycleArrival 0 { goodCycle with slots := put goodCycle.slots slot 5 }) s).begun
    let capture (phase : CapturePhase) : State :=
      withCapture (withEntry locked 0 { readyClip with state := .capturing }) { Capture.idle with phase := phase }
    let player (x : Player) : State := (withPlayer (withEntry locked 2 readyClip) x).begun
    let x : Player := { Player.idle with state := .playing, sequence := [2] }
    (arrived 0 lost).tap 0 ≠ -8388608 ∧ ((arrived 0 lost).feeds[(0 : Fin 4)]).state = .bothLost ∧
    (arrived 1 lost).tap 0 = -8388608 ∧ (arrived 1 lost).tap 1 ≠ -8388608 ∧ lost.begun.tap 1 = -8388608 ∧
    (capture .recording).begun.clips.capture.phase = .recording ∧
    (arrived 0 (capture .waitingSound)).clips.capture.phase = .waitingSound ∧
    (arrived 0 (capture .waitingSound)).clips.capture.slot = 0 ∧ lost.begun.scene.handed = 0 ∧
    (player { x with fifo := [(0, 4)] }).clips.players[(0 : Fin 4)].fifo = [(0, 4)] ∧
    ((player { x with fetch := some (0, 0) }).clips.players[(0 : Fin 4)]).underrun = false ∧
    ((player { x with fetch := some (0, 0) }).clips.players[(0 : Fin 4)]).fifo = [] ∧
    ((player { x with releasing := true }).clips.players[(0 : Fin 4)]).state = .idle := by decide +kernel

/-- Records at their limits, a repeat that starts with a joining zone held by a lower page. -/
theorem test_witness_page_events :
    let low : Page := { livePage 6 .playing with priority := 1, zones := 0x100, granted := 0x100, arrival := 2 }
    let p : Page := { clipPage 8 with joining := 0x100, zones := 0x1F0, whole := false }
    let s := withPages locked [p, low]
    let t := run (.gapEnd 8) s
    s.pagesOk ∧ p ∈ s.pages.queue ∧ p.restartIn = some 0 ∧ p.source = .clips [2] ∧ p.player = some 0 ∧
    s.grantableZones p &&& p.joining = 0x100 ∧ s.pages.queue.any (fun q => q.id != 8 && q.suspendedBy 0x100) = true ∧
    pageOne t 8 = some (.playing, 0x1F0, 0) ∧ pageOne t 6 = some (.suspended, 0, 0) ∧ t.pages.passes = 1 ∧
    posted t = [(.pageSuspended, 6, 0)] ∧ (livePage 7 .suspended).waitLife ≠ 0 ∧
    ({ livePage 7 .playing with sourceLoss := 96000 } : Page).state = .playing := by
  unfold State.pagesOk; decide +kernel

/-- The records that a walk examines: PLAYING WHOLE and PARTIAL, a clip and a live one, and waiting ones that need a
player or none, may be granted or may not. -/
theorem test_witness_passes :
    let part : Page := { livePage 4 .playing with priority := 2, zones := 0x3000, granted := 0x1000, whole := false }
    let wait : Page := { newPage 5 2 .request (.liveSlot 9) none 0x10000 true 1 0 5 60 16384 1 with state := .waiting }
    let clip : Page := { newPage 6 2 .request (.clips [2]) none 0x20000 true 1 0 5 60 16384 2 with state := .waiting }
    let out : Page := { newPage 9 1 .request (.clips [2]) none 0x20001 true 1 0 5 60 16384 3 with state := .waiting }
    let s := { withPages (withEntry locked 2 readyClip) [livePage 7 .playing, { clipPage 8 with whole := false }, part, wait,
      clip, out] with pages := { queue := [livePage 7 .playing, { clipPage 8 with whole := false }, part, wait, clip, out]
                                 nextArrival := 9, passes := 2 } }
    s.pagesOk ∧ 0 < s.pages.passes ∧ s.grantableZones part = 0x2000 ∧ s.grantableZones wait = wait.zones ∧
    s.grantableZones clip = clip.zones ∧ s.grantableZones out ≠ out.zones ∧
    (∀ q ∈ s.pages.queue, q.player ≠ some 1) ∧ (∃ q ∈ s.pages.queue, q.player = some 0) ∧
    (s.settle.pages.queue.map (fun q => (q.state, q.granted.toNat, q.player))) =
      [(.playing, 0xF, none), (.playing, 0xF0, some 0), (.playing, 0x3000, none), (.playing, 0x10000, none),
        (.playing, 0x20000, some 1), (.waiting, 0, none)] := by
  unfold State.pagesOk; decide +kernel

/-- Poll slots at their first and at another period, a call that rings and one held, and the cue of the poll's period. -/
theorem test_witness_poll_periods :
    let s (time : Nat) : State := { withCalls stations [localCall .ringing, { trunkCall .ringing with state := .held }] with
      icom := { (withCalls stations [localCall .ringing]).icom with slotTime := time, poll := some (4, .idle) } }
    (s 0).begun.scene.handed = 0 ∧ (s 47).icom.slotTime ≠ 0 ∧ (s 0).icom.slotTime = 0 ∧ (s 1).icom.slotTime = 1 ∧
    (s 1).icom.poll = some (4, .idle) ∧ (closePeriod (s 1)).icom.table[(4 : Fin 32)] = some (panel 2104 4 10) ∧
    (closePeriod (s 1)).icom.poll = some (4, .ringback) := by decide +kernel

/-- Coverage formed anew where no winner changes, and where a CONNECTED call is to be held and a HELD one resumed. -/
theorem test_witness_coverage :
    let muster : State := withRecord { stations with alarm := { stations.alarm with
      groups := put stations.alarm.groups 2 0x400 } } 4 { requestRecord .general false with group := 2 }
    let s := withInserts (withCalls muster [{ trunkCall .connected with parties := .trunkIn 4 300 },
      { localCall .held with id := 44, parties := .trunkOut 7 300 }])
      [{ slot := 3, source := .trunkCall 43, clash := 7, reported := false }]
    let c := s.recoverage s.alarm
    s.recordsOk ∧ s.callsOk ∧ muster.alarm.recompute.coverage[(10 : Fin 24)] = some 4 ∧
    locked.alarm.recompute.coverage = locked.alarm.coverage ∧
    c.icom.calls.map (·.state) = [.held, .connected] ∧ c.ring.inserts.map (·.clash) = [0] ∧ c.pages.passes = 1 := by
  refine ⟨recordsOk_of _ (alarmOk_of _ (by decide +kernel)), ?_, by decide +kernel⟩
  unfold State.callsOk; decide +kernel

/-- Contact lines, remote records, generators of silent and sounding steps, each state of the scanner, and zones with
sense inputs in one, two and no positions. -/
theorem test_witness_supervision_periods :
    let q : AlarmRec := newRecord (.remote 12 0) .crew 0 0 none 4096 false
    let g : Generator := { entry := 5, pattern := 0, step := 0, elapsed := 0, position := 0, divider := 9 }
    let silent : PatternStep := { mode := .silent, duration := 1, n1 := 96, n2 := 0, amplitude := 5, last := true }
    let r : State := withRecord { locked with alarm := { locked.alarm with
      patterns := put locked.alarm.patterns 2 (put locked.alarm.patterns[2] 0 (some silent))
      generators := put (put locked.alarm.generators 0 (some g)) 1 (some { g with entry := 4, pattern := 3 }) } } 5 q
    let scan (x : ScanState) (enabled : Bool) : State := withLines locked { locked.lines with
      scanner := x, settings := { top := 31, burst := 2, rest := 1 }, position := 8
      windows := put locked.lines.windows 6 { enabled := enabled, low := 16, high := 64 } }
    let sense := ask .setInput [21, 0, 267] (ask .setInput [20, 0, 266] (ask .setInput [4, 0, 256] locked))
    r.begun.alarm.records[(5 : Fin 8)] = some q ∧ r.ring.rx = .locked ∧ r.begun.alarm.generators[(0 : Fin 4)] = some g ∧
    ((r.alarm.stepAt 0 0).mode ≠ .silent ∧ (r.alarm.stepAt 0 0).n1 ≠ 0) ∧ (r.alarm.stepAt 3 0).mode = .silent ∧
    (scan .choosing true).lines.scanner = .choosing ∧
    ((∃ z, (scan .choosing true).ports.channels[(6 : Fin 32)] = .zone z) ∧
      ((scan .choosing true).lines.windows[(6 : Fin 32)]).enabled = true ∧
      ((scan .choosing true).lines.windows[(7 : Fin 32)]).enabled = false) ∧
    (scan .choosing true).begun.lines.scanner = .stepping 6 ∧ (scan .searching false).begun.lines.scanner = .searching ∧
    (scan (.stepping 6) true).lines.scanner = .stepping 6 ∧ (scan .resting true).lines.scanner = .resting ∧
    (scan .stopped true).lines.scanner = .stopped ∧
    (sense.ports.inputs[(20 : Fin 32)]).role = .sense 5 0 ∧ (sense.ports.inputs[(21 : Fin 32)]).role = .sense 5 1 ∧
    (sense.ports.inputs[(4 : Fin 32)]).role = .sense 0 0 ∧
    (∀ i : Fin 32, (sense.ports.inputs[i]).role ≠ .sense 0 1 ∧ (sense.ports.inputs[i]).role ≠ .sense 7 0) := by
  decide +kernel

/-- SET ZONE in DIRECT mode that locks zone 2 against a WHOLE page of priority 3 (R116, R118). -/
theorem test_mode_change :
    let s := withPages locked [{ livePage 7 .playing with whole := true }, clipPage 8]
    let t := ask .setZone [2, 1, 4, 16384, 0, 1, 1] s
    s.pagesOk ∧ (s.zoneFields 2).mode = .normal ∧ s.ctl.incoming.isNone = true ∧
    pageOne t 7 = some (.suspended, 0, 0) ∧ pageOne t 8 = some (.playing, 0xF0, 0) ∧ t.pages.passes = 2 ∧
    posted t = [(.pageSuspended, 7, 0)] ∧ (closePeriod t).pages.passes = 0 := by
  unfold State.pagesOk; decide +kernel

/-- The change of mode and the suspension it brings have a pass each (R112): the first marks zone 0 for the clip page and
gives it to the page that waits, the second takes the mark away. -/
theorem test_second_pass_clears_marks :
    let low : Page := { livePage 7 .playing with whole := true, zones := 5, granted := 5, arrival := 3 }
    let part : Page := { clipPage 8 with
      priority := 5, whole := false, zones := 0xF1, phase := .audio, restartIn := none, arrival := 1 }
    let wait : Page := { livePage 9 .waiting with priority := 5, whole := true, zones := 1, arrival := 2 }
    let s := withPages locked [part, wait, low]
    let t := ask .setZone [2, 1, 4, 16384, 0, 1, 1] s
    s.pagesOk ∧ t.pages.passes = 2 ∧ pageOne (closePeriod t) 9 = some (.playing, 1, 0) ∧
    pageOne (closePeriod t) 8 = some (.playing, 0xF0, 0) ∧
    pageOne t.duePass.runPasses 8 = some (.playing, 0xF0, 0) ∧
    pageOne (t.setPages { t.pages with passes := 1 }).runPasses 8 = some (.playing, 0xF0, 1) := by
  unfold State.pagesOk; decide +kernel

/-! ### Witnesses: captures and clashes on an arrival, words of clip memory, patterns, stations and calls -/

/-- A recording, one that waits for sound and one that closes, when the receiver leaves LOCKED (R99). -/
theorem test_witness_capture_lost :
    let s (phase : CapturePhase) : State := withCapture (withEntry locked 2 { readyClip with state := .capturing })
      { Capture.idle with phase := phase, clip := 2 }
    (∀ phase : CapturePhase, (s phase).ring.rx = .locked ∧ (s phase).ring.reads 0 badCycle = true) ∧
    (closePeriod (s .recording)).clips.capture.phase = .recording ∧
    (closePeriod (s .waitingSound)).clips.capture.phase = .waitingSound ∧
    (closePeriod (withBurst (s .closing) (.captureWrite [(5, 1)]) 1)).clips.capture.phase = .closing ∧
    posted (run (.cycleArrival 0 badCycle) (s .recording)) = [(.captureFailed, 2, 2)] ∧
    ((run (.cycleArrival 0 badCycle) (s .recording)).clips.directory[(2 : Fin 256)]).map (fun e => (e.used, e.state)) =
      some (0, .empty) := by
  refine ⟨fun phase => ?_, by decide +kernel⟩
  cases phase <;> exact ⟨rfl, by decide +kernel⟩

/-- Inserts of an active and of an inactive source and of a trunk call: the 48th clash, an empty slot, and outside
LOCKED (R16). -/
theorem test_witness_clashes :
    let i : Insert := { slot := 3, source := .zone 2, clash := 47, reported := false }
    let s := withInserts (withCalls locked [trunkCall .connected])
      [i, { i with slot := 4, source := .player 1, clash := 5 }, { i with slot := 9, source := .trunkCall 43 }]
    let counts (s : State) (c : RingCycle) : List Nat := (run (.cycleArrival 0 c) s).ring.inserts.map (·.clash)
    s.activeSource (.zone 2) ∧ ¬ s.activeSource (.player 1) ∧ s.activeSource (.trunkCall 43) ∧
    (closePeriod s).ring.inserts = s.ring.inserts ∧ counts s { goodCycle with slots := Vector.replicate 64 7 } = [48, 5, 48] ∧
    counts s goodCycle = [0, 5, 0] ∧ counts s badCycle = [0, 0, 0] ∧
    counts (withRx s .suspect 0 3) badCycle = [0, 0] := by
  refine ⟨trivial, fun h => h (by decide +kernel), ?_, by decide +kernel⟩
  exact ⟨trunkCall .connected, by decide +kernel, by decide +kernel, by decide +kernel⟩

/-- The words of the displacement in the terms of their own bits, and a refresh that changes the class. -/
theorem test_witness_alert_operands :
    let w (kind origin group cls : Nat) : BitVec 26 := alertWord (BitVec.ofNat 2 kind) (BitVec.ofNat 6 origin)
      (BitVec.ofNat 3 group) (BitVec.ofNat 2 cls) 0 0
    [w 1 20 3 2, w 2 20 3 1, w 1 30 6 3, w 1 30 6 0].map (fun x => decide
      (x.extractLsb' 0 4 = alertCheck (x.extractLsb' 4 22) ∧ (x.extractLsb' 24 2 = 1 ∨ x.extractLsb' 24 2 = 2) ∧
      x.extractLsb' 18 6 ≠ 0 ∧ x.extractLsb' 18 6 ≠ displaced.ring.address)) = [true, true, true, true] ∧
    AlarmClass.crew.rank = ((w 1 20 3 2).extractLsb' 13 2).toNat ∧
    AlarmClass.general.rank = ((w 1 30 6 3).extractLsb' 13 2).toNat ∧
    (displaced.alarm.records[(6 : Fin 8)]).map (fun r => (r.origin, r.cls)) = some (.remote 20 3, .localArea) ∧
    (displaced.alarm.records[(4 : Fin 8)]).map (·.cls) = some .test := by decide +kernel

/-- A burst that writes an address twice and leaves another, and a buffer that holds an address and lacks the next. -/
theorem test_witness_clip_words :
    let m := memWriteAll [(5, 1), (8, 4)] [(5, 2), (6, 3), (5, 9)]
    let s : State := { locked with clips := { locked.clips with
      memory := [(1000, 1), (1001, 2)], writeBuffer := some { clip := 2, address := 1000, words := [7], granted := false } } }
    s.memoryOk ∧ Memory.wf [((5 : Nat), (1 : ClipWord)), (8, 4)] = true ∧ memRead m 5 = 9 ∧ memRead m 6 = 3 ∧
    memRead m 8 = 4 ∧ s.clips.readWord 1000 = 7 ∧ s.clips.readWord 1001 = 2 := by
  refine ⟨rfl, ?_⟩; decide +kernel

/-- A pass that suspends a record past its wait life: its end makes a further pass due, run in the same period. -/
theorem test_second_round :
    let low : Page := { livePage 6 .playing with
      whole := true, priority := 1, zones := 3, granted := 3, waitLife := 1, waitTimer := 48000 }
    let top : Page := { livePage 7 .waiting with whole := true, priority := 5, zones := 1, arrival := 1 }
    let s : State := { withPages locked [top, low] with pages := { queue := [top, low], nextArrival := 9, passes := 1 } }
    s.pagesOk ∧ 0 < s.pages.passes ∧ s.runPasses.expired.pages.passes = 1 ∧
    s.settle.pages.queue.map (fun q => (q.id.toNat, q.state)) = [(7, .playing)] ∧ s.settle.pages.passes = 0 ∧
    posted s.settle = [(.pageSuspended, 6, 0), (.pageStarted, 7, 0), (.pageEnded, 6, 3)] := by
  unfold State.pagesOk; decide +kernel

/-- Stations in each state of R133, in a table that gives each at most one call. -/
theorem test_witness_station_states :
    let local_ := withCalls stations [localCall .ringing]
    let trunk (answered : Bool) := withCalls stations [{ trunkCall .ringing with answered := answered }]
    local_.callsApart ∧ (trunk true).callsApart ∧
    [local_.stationState 4, local_.stationState 7, local_.stationState 9] = [.calling, .ringing, .absent] ∧
    [(trunk true).stationState 7, (trunk false).stationState 7, (trunk true).stationState 4] =
      [.talking, .ringing, .idle] ∧
    [CallState.wanted, .connected, .held].map (fun x => (withCalls stations [localCall x]).stationState 4) =
      [.calling, .talking, .held] := by
  refine ⟨?_, ?_, by decide +kernel⟩ <;> · unfold State.callsApart; decide +kernel

/-- A PRESENT station at three misses with a call and a page, beside a call and a page of others. -/
theorem test_witness_station_lost :
    let own : PageId := BitVec.ofNat 16 (65280 + 4)
    let s := withPages (withCalls (withAwaiting stations 4 3 true)
        [localCall .connected, { trunkCall .ringing with parties := .trunkIn 9 300 }])
      [livePage 7 .playing, { livePage own .playing with priority := 2, zones := 0xF0, granted := 0xF0 }]
    let t := run (.stationLost 4) s
    s.callsOk ∧ s.pagesOk ∧ s.callOf 4 = some (localCall .connected) ∧ s.icom.table[(4 : Fin 32)] ≠ none ∧
    (∃ q ∈ s.pages.queue, q.id.toNat = 65280 + (4 : Fin 32).val) ∧
    posted t = [(.stationLost, 4, 0), (.callEnded, 42, 6), (.pageEnded, 65284, 5)] ∧
    t.icom.calls.map (·.id.toNat) = [43] ∧ t.pages.queue.map (·.id.toNat) = [7] := by
  unfold State.callsOk State.pagesOk; decide +kernel

/-- Pattern 1 without a step, pattern 2 with its third step the last, pattern 3 with none. -/
theorem test_witness_patterns :
    let y (last : Bool) : PatternStep :=
      { mode := .steady, duration := 9, n1 := 96, n2 := 0, amplitude := 5, last := last }
    let x : Alarm := { locked.alarm with
      patterns := put (put locked.alarm.patterns 1 (put (put locked.alarm.patterns[1] 0 (some (y false))) 2 (some (y true))))
        2 (put locked.alarm.patterns[2] 5 (some (y false))) }
    ((x.patterns[(1 : Fin 7)])[(2 : Fin 16)] = some (y true) ∧ (x.patterns[(0 : Fin 7)])[(2 : Fin 16)] = none) ∧
    [x.length 0, x.length 1, x.length 2, x.length 3] = [1, 1, 3, 16] ∧
    x.stepAt 2 2 = y true ∧ (x.stepAt 2 1).mode = .silent ∧ (x.stepAt 2 1).duration = 1 ∧ (x.stepAt 1 7).n1 = 60 := by
  decide +kernel

/-- A CONNECTED call beside a HELD one whose station listens to a zone under GENERAL. -/
theorem test_witness_call_invariants :
    let c : State := ask .alarmStart [9, 3, 2, 0, 255, 0, 0] (withCalls { stations with alarm := { stations.alarm with
      groups := put stations.alarm.groups 2 0x400 } }
      [{ localCall .connected with parties := .trunkOut 4 300 }, { trunkCall .connected with parties := .trunkIn 7 300 }])
    let s : State := { c with pending := [.answer 7] }
    s.callsOk ∧ s.callsApart ∧ s.alarmOk ∧ s.holdOk ∧ s.icom.calls.map (·.state) = [.held, .connected] ∧
    ∃ t, step s = .next t := by
  refine ⟨?_, ?_, alarmOk_of _ (by decide +kernel), holdOk_of _ (by decide +kernel), by decide +kernel, _, rfl⟩
  · unfold State.callsOk; decide +kernel
  · unfold State.callsApart; decide +kernel

end Sys2Proof.Tests
end

section
/-! SET INSERT and CLEAR INSERT (R12, R13): each row of their check tables, and the effect when every check passes. -/

namespace Sys2Proof.Machine

/-! ### Operands out of range -/

theorem outside_iff (low high : Nat) (w : Word16) :
    outside low high w = true ↔ w.toNat < low ∨ high < w.toNat := by
  simp [outside]

theorem codedIndex_outside {base n : Nat} {w : Word16} (hn : 0 < n) (h : outside base (base + n - 1) w = true) :
    codedIndex base n w = none := by
  rcases (outside_iff _ _ _).mp h with below | above
  · exact codedIndex_below below
  · exact codedIndex_above (by omega)

theorem insertSource_none {w : Word16} (input : outside 256 287 w = true) (zone : outside 512 535 w = true)
    (player : outside 768 771 w = true) : insertSource w = none := by
  have hi : codedIndex 256 32 w = none := codedIndex_outside (by decide) input
  have hz : codedIndex 512 24 w = none := codedIndex_outside (by decide) zone
  have hp : codedIndex 768 4 w = none := codedIndex_outside (by decide) player
  simp [insertSource, hi, hz, hp]

/-- The OUT OF RANGE row of SET INSERT (R12). -/
theorem outOfRange_setInsert_eq (slot source : Word16) :
    outOfRange 0x10 [slot, source] =
      (outside 0 63 slot || (outside 256 287 source && outside 512 535 source && outside 768 771 source)) := rfl

theorem operand_none_of_outOfRange {slot source : Word16} (h : outOfRange 0x10 [slot, source] = true) :
    wordIndex 64 slot = none ∨ insertSource source = none := by
  have rows : outside 0 63 slot = true ∨
      (outside 256 287 source = true ∧ outside 512 535 source = true) ∧ outside 768 771 source = true := by
    rw [outOfRange_setInsert_eq] at h
    simpa using h
  rcases rows with hslot | ⟨⟨input, zone⟩, player⟩
  · have : 63 < slot.toNat := by simpa [outside_iff] using hslot
    exact .inl (wordIndex_none this)
  · exact .inr (insertSource_none input zone player)

/-! ### What the owners answer -/

theorem slotNamed_eq_false_iff (s : State) (t : Fin 64) :
    s.slotNamed t = false ↔ s.ring.inserts.all (fun i => i.slot != t) = true := by
  simp [State.slotNamed]

theorem setInsert_badLength {ws : List Word16} (s : State) (h : ws.length ≠ 2) :
    setInsert ws s = .refuse .badLength s := by
  match ws with
  | [] | [_] | _ :: _ :: _ :: _ => rfl
  | [_, _] => exact absurd rfl h

theorem setInsert_outOfRange {slot source : Word16} (s : State)
    (h : wordIndex 64 slot = none ∨ insertSource source = none) :
    setInsert [slot, source] s = .refuse .outOfRange s := by
  rcases h with h | h
  · simp [setInsert, h]
  · cases hslot : wordIndex 64 slot <;> simp [setInsert, h, hslot]

theorem setInsert_words (s : State) (t : Fin 64) (src : InsertSource) (w : Word16) (h : insertWord src = some w) :
    setInsert [word t.val, w] s =
      if s.slotNamed t then .refuse .conflict s
      else if 32 ≤ s.ring.staticCount then .refuse .full s
      else .ok (s.addInsert t src) := by
  simp only [setInsert, wordIndex_word t (by decide), insertSource_word src w h]

theorem clearInsert_badLength {ws : List Word16} (s : State) (h : ws.length ≠ 1) :
    clearInsert ws s = .refuse .badLength s := by
  match ws with
  | [] | _ :: _ :: _ => rfl
  | [_] => exact absurd rfl h

theorem clearInsert_outOfRange {slot : Word16} (s : State) (h : 63 < slot.toNat) :
    clearInsert [slot] s = .refuse .outOfRange s := by
  simp only [clearInsert, wordIndex_none (n := 64) h]

theorem clearInsert_word (s : State) (t : Fin 64) :
    clearInsert [word t.val] s =
      if s.ring.inserts.any (fun i => i.slot == t && !i.static) then .refuse .inUse s
      else if s.slotNamed t = false then .refuse .notFound s
      else .ok (s.removeInsert t) := by
  simp only [clearInsert, wordIndex_word t (by decide)]

/-! ### What an own CLOSE leaves -/

/-- A buffer marked TOO LONG is answered BAD LENGTH, whatever the request (R29). -/
theorem request_tooLong (owner : List Word16 → State → Answer) (code : BitVec 8) (a : NodeAddr) (low : BitVec 8)
    (s : State) (h : s.own a) (hs : s.ctl.buffer.spoiled = false) (hl : s.ctl.buffer.tooLong = true) :
    request code owner a low s = s.answered code .badLength [] := by
  have refused : examine owner s = .refuse .badLength s := by simp [examine, hs, hl]
  rw [request, closeWord_own _ _ _ _ _ _ h, refused, consume_refuse]

theorem exec_setInsert_eq_request (a : NodeAddr) (low : BitVec 8) (s : State) :
    exec (.setInsert a low) s = .next (request 0x10 setInsert a low s) := rfl

theorem exec_clearInsert_eq_request (a : NodeAddr) (low : BitVec 8) (s : State) :
    exec (.clearInsert a low) s = .next (request 0x11 clearInsert a low s) := rfl

section Asked

variable {s : State} {a : NodeAddr} {ws : List Word16}

theorem exec_setInsert_asked (low : BitVec 8) (h : s.asked a ws) :
    exec (.setInsert a low) s = .next (State.consume 0x10 (setInsert ws s)) := by
  rw [exec_setInsert_eq_request, request_asked _ _ _ _ _ _ h]

theorem exec_clearInsert_asked (low : BitVec 8) (h : s.asked a ws) :
    exec (.clearInsert a low) s = .next (State.consume 0x11 (clearInsert ws s)) := by
  rw [exec_clearInsert_eq_request, request_asked _ _ _ _ _ _ h]

/-- SET INSERT with operands in range: CONFLICT, FULL, or the new insert (R12). -/
theorem exec_setInsert_words (low : BitVec 8) (t : Fin 64) (src : InsertSource) (w : Word16)
    (hw : insertWord src = some w) (h : s.asked a [word t.val, w]) :
    exec (.setInsert a low) s = .next (
      if s.slotNamed t then s.answered 0x10 .conflict []
      else if 32 ≤ s.ring.staticCount then s.answered 0x10 .full []
      else (s.addInsert t src).answered 0x10 .ok []) := by
  rw [exec_setInsert_asked low h, setInsert_words s t src w hw]
  simp only [apply_ite (State.consume 0x10), consume_refuse, consume_ok]

/-- CLEAR INSERT with a slot in range: IN USE, NOT FOUND, or the insert removed (R13). -/
theorem exec_clearInsert_word (low : BitVec 8) (t : Fin 64) (h : s.asked a [word t.val]) :
    exec (.clearInsert a low) s = .next (
      if s.ring.inserts.any (fun i => i.slot == t && !i.static) then s.answered 0x11 .inUse []
      else if s.ring.inserts.all (fun i => i.slot != t) then s.answered 0x11 .notFound []
      else (s.removeInsert t).answered 0x11 .ok []) := by
  rw [exec_clearInsert_asked low h, clearInsert_word]
  simp only [apply_ite (State.consume 0x11), consume_refuse, consume_ok, slotNamed_eq_false_iff]

end Asked

/-- Settles O20, row by row of the two check tables. -/
theorem insertRequestsFollowTheirTables : Obligations.InsertRequestsFollowTheirTables := by
  refine ⟨fun s a low own spoiled tooLong => ⟨?_, ?_⟩, fun s a low ws asked => ⟨?_, ?_, ?_, ?_, ?_, ?_⟩⟩
  · rw [exec_setInsert_eq_request, request_tooLong _ _ _ _ _ own spoiled tooLong]
  · rw [exec_clearInsert_eq_request, request_tooLong _ _ _ _ _ own spoiled tooLong]
  · intro length
    rw [exec_setInsert_asked low asked, setInsert_badLength s length, consume_refuse]
  · intro length
    rw [exec_clearInsert_asked low asked, clearInsert_badLength s length, consume_refuse]
  · rintro slot source rfl row
    rw [exec_setInsert_asked low asked, setInsert_outOfRange s (operand_none_of_outOfRange row), consume_refuse]
  · rintro t src w hw rfl
    exact exec_setInsert_words low t src w hw asked
  · rintro slot rfl range
    rw [exec_clearInsert_asked low asked, clearInsert_outOfRange s range, consume_refuse]
  · rintro t rfl
    exact exec_clearInsert_word low t asked

end Sys2Proof.Machine
end

section
/-! READ EVENTS (R36): the answer to an empty request buffer, and the count word of the reply. -/

namespace Sys2Proof.Machine

/-- The fields of the count word: 3 bits of returned records, 5 of remaining ones, OVERFLOW (2.8.4). -/
theorem countWord_take (events : List EventRec) (remaining : Nat) (overflow : Bool) :
    countWord (events.take 7).length remaining overflow =
      BitVec.ofNat 3 (min 7 events.length) ++ BitVec.ofNat 5 remaining ++ BitVec.ofBool overflow ++
        (0 : BitVec 7) := by
  rw [countWord, List.length_take]

/-- The control interface after a READ EVENTS: the records it returns are gone, the catch record has joined the tail
of the list, OVERFLOW is clear. -/
def Control.afterRead (c : Control) : Control :=
  { c with events := c.events.drop 7 ++ c.catchRec.toList, catchRec := none, overflow := false }

theorem readEvents_nil (s : State) :
    readEvents [] s = .report (s.setCtl s.ctl.afterRead)
      (countWord (s.ctl.events.take 7).length s.ctl.afterRead.events.length s.ctl.overflow ::
        (s.ctl.events.take 7).flatMap EventRec.replyWords) := rfl

theorem exec_readEvents_eq_request (a : NodeAddr) (low : BitVec 8) (s : State) :
    exec (.readEvents a low) s = .next (request 0x04 readEvents a low s) := rfl

/-- READ EVENTS with no parameter words answers OK with the count word and two words for each returned record. -/
theorem exec_readEvents_asked {s : State} {a : NodeAddr} (low : BitVec 8) (h : s.asked a []) :
    exec (.readEvents a low) s = .next ((s.setCtl s.ctl.afterRead).answered 0x04 .ok
      (countWord (s.ctl.events.take 7).length s.ctl.afterRead.events.length s.ctl.overflow ::
        (s.ctl.events.take 7).flatMap EventRec.replyWords)) := by
  rw [exec_readEvents_eq_request, request_asked _ _ _ _ _ _ h, readEvents_nil, consume_report]

/-- Settles O12: the answer to an own CLOSE with an empty buffer, its count word written out by fields. -/
theorem readEventsReturnsTheOldest : Obligations.ReadEventsReturnsTheOldest := by
  intro s a low asked
  rw [exec_readEvents_asked low asked, countWord_take]
  rfl

end Sys2Proof.Machine
end

section
/-! What an operation keeps: the invariants of the node, one relation for all of them, and the blocks whose writing
touches none. Every operation of the model has one lemma `…_keeps` in the sections that follow. -/

namespace Sys2Proof.Machine

/-- From one state to another every invariant is kept: the zones' freedom under `pagesOk`, the intercom's under
`callsOk`, the hold under `alarmOk` too. -/
structure Kept (s t : State) : Prop where
  memory : s.memoryOk → t.memoryOk
  control : s.controlOk → t.controlOk
  trackers : s.trackersOk → t.trackersOk
  inserts : s.insertsOk → t.insertsOk
  alarm : s.alarmOk → t.alarmOk
  pages : s.pagesOk → t.pagesOk
  zones : s.pagesOk → s.zonesFree → t.zonesFree
  calls : s.callsOk → t.callsOk
  apart : s.callsOk → s.callsApart → t.callsApart
  hold : s.callsOk → s.alarmOk → s.holdOk → t.holdOk

theorem Kept.refl (s : State) : Kept s s :=
  ⟨id, id, id, id, id, id, fun _ => id, id, fun _ => id, fun _ _ => id⟩

theorem Kept.trans {s t u : State} (h : Kept s t) (k : Kept t u) : Kept s u where
  memory := k.memory ∘ h.memory
  control := k.control ∘ h.control
  trackers := k.trackers ∘ h.trackers
  inserts := k.inserts ∘ h.inserts
  alarm := k.alarm ∘ h.alarm
  pages := k.pages ∘ h.pages
  zones := fun pages zones => k.zones (h.pages pages) (h.zones pages zones)
  calls := k.calls ∘ h.calls
  apart := fun calls apart => k.apart (h.calls calls) (h.apart calls apart)
  hold := fun calls alarm hold => k.hold (h.calls calls) (h.alarm alarm) (h.hold calls alarm hold)

theorem Kept.ite {c : Prop} [Decidable c] {s t u : State} (ht : c → Kept s t) (hu : ¬ c → Kept s u) :
    Kept s (if c then t else u) := by
  split
  · exact ht ‹_›
  · exact hu ‹_›

/-- The receiver: what an arriving cycle alone can move (R3 to R6). -/
def Ring.receiver (r : Ring) : RxState × Nat × Nat × Fin 1626 × List Seen × BitVec 16 :=
  (r.rx, r.goodRun, r.missCount, r.alignment, r.stream, r.prevNumber)

/-- Beside the invariants an operation keeps the receiver and the node's settings, those a SET NODE has brought in the
period included. A block that an operation does not write keeps its invariant by definition, so the proofs about one
block start from `Keeps.refl`. -/
structure Keeps (s t : State) : Prop extends Kept s t where
  settings : t.ctl.settings = s.ctl.settings
  incoming : t.ctl.incoming = s.ctl.incoming
  receiver : t.ring.receiver = s.ring.receiver

theorem Keeps.refl (s : State) : Keeps s s := ⟨.refl s, rfl, rfl, rfl⟩

theorem Keeps.trans {s t u : State} (h : Keeps s t) (k : Keeps t u) : Keeps s u :=
  ⟨h.toKept.trans k.toKept, k.settings.trans h.settings, k.incoming.trans h.incoming, k.receiver.trans h.receiver⟩

theorem Keeps.foldl {α : Type} {f : State → α → State} (h : ∀ s x, Keeps s (f s x)) (l : List α) (s : State) :
    Keeps s (l.foldl f s) :=
  foldl_keeps Keeps.refl Keeps.trans f h l s

theorem Keeps.forEach {n : Nat} {f : Fin n → State → State} (h : ∀ i s, Keeps s (f i s)) (s : State) :
    Keeps s (forEach n f s) :=
  forEach_keeps Keeps.refl Keeps.trans n f h s

/-- One of two outcomes, each of which keeps the invariants. -/
theorem Keeps.ite {c : Prop} [Decidable c] {s t u : State} (ht : c → Keeps s t) (hu : ¬ c → Keeps s u) :
    Keeps s (if c then t else u) := by
  split
  · exact ht ‹_›
  · exact hu ‹_›

/-! ### Blocks without an invariant, and fields of the others -/

theorem setRing_kept {s : State} {r : Ring} (h : r.inserts.map (·.slot) = s.ring.inserts.map (·.slot)) :
    Kept s (s.setRing r) where
  __ := Kept.refl s
  inserts := fun slots => by rw [State.insertsOk, State.setRing_ring, h]; exact slots

theorem setRing_keeps {s : State} {r : Ring} (h : r.inserts.map (·.slot) = s.ring.inserts.map (·.slot))
    (receiver : r.receiver = s.ring.receiver) : Keeps s (s.setRing r) :=
  ⟨setRing_kept h, rfl, rfl, receiver⟩

theorem setRing_filter_keeps {s : State} {r : Ring} (p : Insert → Bool) (h : r.inserts = s.ring.inserts.filter p)
    (receiver : r.receiver = s.ring.receiver) : Keeps s (s.setRing r) where
  __ := Keeps.refl s
  inserts := fun slots => by rw [State.insertsOk, State.setRing_ring, h]; exact filter_inserts_nodup _ _ slots
  receiver := receiver

theorem putControl_keeps (s : State) (w : BitVec 32) : Keeps s (s.putControl w) := setRing_keeps rfl rfl

theorem setPorts_keeps (s : State) (x : Ports) : Keeps s (s.setPorts x) := { Keeps.refl s with }

theorem setFeeds_keeps (s : State) (x : Vector Feed 4) : Keeps s (s.setFeeds x) := { Keeps.refl s with }

theorem setLines_keeps (s : State) (x : Lines) : Keeps s (s.setLines x) := { Keeps.refl s with }

theorem setSamples_keeps (s : State) (k k' : Computation) : Keeps s (s.setSamples k k') := { Keeps.refl s with }

theorem setClips_keeps {s : State} {x : Clips} (h : x.memory = s.clips.memory) : Keeps s (s.setClips x) where
  __ := Keeps.refl s
  memory := fun wf => by rw [State.memoryOk, State.setClips_clips, h]; exact wf

theorem setTrackers_keeps {s : State} {x : Vector ZoneTracker 24}
    (h : ∀ z : Fin 24, (s.trackers[z]).inRange → (x[z]).inRange) : Keeps s (s.setTrackers x) where
  __ := Keeps.refl s
  trackers := fun ranges z => h z (ranges z)

/-- The zones' freedom reads the modes of the active bank and the zones still to be handed over. -/
theorem zonesFree_of_modes {s t : State} (queue : t.pages.queue = s.pages.queue)
    (coverage : t.alarm.coverage = s.alarm.coverage)
    (modes : ∀ z, t.scene.handed.getLsbD z.val = false →
      s.scene.handed.getLsbD z.val = false ∧ (t.zoneFields z).mode = (s.zoneFields z).mode)
    (h : s.zonesFree) : t.zonesFree := by
  intro p hp z hz
  obtain ⟨uncovered, unlocked⟩ := h p (queue ▸ hp) z hz
  refine ⟨by rw [State.covered, coverage]; exact uncovered, fun pending threshold mode => ?_⟩
  obtain ⟨old, same⟩ := modes z pending
  exact unlocked old threshold (same ▸ mode)

theorem setMix_keeps {s : State} {x : Mix}
    (h : ∀ z : Fin 24, ((x.bank s.scene.active).fields[z]).mode = (s.zoneFields z).mode) : Keeps s (s.setMix x) where
  __ := Keeps.refl s
  zones := fun _ => zonesFree_of_modes rfl rfl fun z pending => ⟨pending, h z⟩

theorem setScene_keeps {s : State} {x : Scene}
    (h : ∀ z : Fin 24, x.handed.getLsbD z.val = false →
      s.scene.handed.getLsbD z.val = false ∧ ((s.mix.bank x.active).fields[z]).mode = (s.zoneFields z).mode) :
    Keeps s (s.setScene x) where
  __ := Keeps.refl s
  zones := fun _ => zonesFree_of_modes rfl rfl h

theorem setCtl_keeps {s : State} {x : Control}
    (h : s.controlOk → x.events.length ≤ 16 ∧ (x.catchRec.isSome → x.events.length = 16) ∧ x.buffer.words.length ≤ 16)
    (settings : x.settings = s.ctl.settings) (incoming : x.incoming = s.ctl.incoming) : Keeps s (s.setCtl x) where
  __ := Keeps.refl s
  control := h
  settings := settings
  incoming := incoming

/-! ### Events and the request buffer -/

theorem post_keeps (s : State) (kind : EventKind) (n : Word16) (d : BitVec 4) : Keeps s (s.post kind n d) where
  __ := Keeps.refl s
  control := fun h => by
    obtain ⟨events, full, words⟩ := h
    rw [State.controlOk, post_ctl]
    split
    · rename_i room
      refine ⟨by simpa using room, fun some => ?_, words⟩
      exact absurd (full some) (by omega)
    · exact ⟨events, fun _ => by change s.ctl.events.length = 16; omega, words⟩
  settings := by simp
  incoming := by simp

theorem clearBuffer_keeps (s : State) : Keeps s s.clearBuffer :=
  setCtl_keeps (fun ⟨events, full, _⟩ => ⟨events, full, Nat.zero_le _⟩) rfl rfl

theorem spoilBuffer_keeps (s : State) : Keeps s s.spoilBuffer := setCtl_keeps id rfl rfl

theorem append_words_length (b : RequestBuffer) (data : Word16) (h : b.words.length ≤ 16) :
    (b.append data).words.length ≤ 16 := by
  unfold RequestBuffer.append
  split
  · simpa using Nat.succ_le_of_lt ‹_›
  · exact h

theorem appendBuffer_keeps (s : State) (data : Word16) :
    Keeps s (s.setCtl { s.ctl with buffer := s.ctl.buffer.append data }) :=
  setCtl_keeps (fun ⟨events, full, words⟩ => ⟨events, full, append_words_length _ _ words⟩) rfl rfl

theorem passControl_keeps (s : State) (w : BitVec 32) : Keeps s (s.passControl w) := by
  unfold State.passControl
  split
  · exact .refl s
  · exact putControl_keeps s w

/-! ### Answers -/

/-- What the owner of a request can answer: a refusal, which leaves the state and has no words, or OK or ACCEPTED with
`n` words in a state of which something holds (R30). -/
inductive Answered (s : State) (n : Nat) (R : State → Prop) : Answer → Prop
  | refused (status : Status) (ok : status ≠ .ok) (accepted : status ≠ .accepted) : Answered s n R (.refuse status s)
  | taken (t : State) (status : Status) (words : List Word16) (good : status = .ok ∨ status = .accepted)
      (length : words.length = n) (after : R t) : Answered s n R { state := t, status := status, reply := words }

theorem Answered.ok {s t : State} {R : State → Prop} (h : R t) : Answered s 0 R (.ok t) := .taken t .ok [] (.inl rfl) rfl h

/-- OK and ACCEPTED, under which a request has been executed. -/
def Status.taken (status : Status) : Bool := status == .ok || status == .accepted

theorem Answered.refusal {s : State} {n : Nat} {R : State → Prop} {status : Status} (h : status.taken = false) :
    Answered s n R (.refuse status s) :=
  .refused status (fun ok => by subst ok; cases h) (fun accepted => by subst accepted; cases h)

theorem Answered.ite {s : State} {n : Nat} {R : State → Prop} {c : Prop} [Decidable c] {a b : Answer}
    (ha : c → Answered s n R a) (hb : ¬ c → Answered s n R b) : Answered s n R (if c then a else b) := by
  split
  · exact ha ‹_›
  · exact hb ‹_›

theorem Answered.report {s t : State} {n : Nat} {R : State → Prop} {ws : List Word16} (length : ws.length = n) (h : R t) :
    Answered s n R (.report t ws) := .taken t .ok ws (.inl rfl) length h

theorem Answered.state_keeps {s : State} {n : Nat} {a : Answer} (h : Answered s n (Keeps s) a) : Keeps s a.state := by
  cases h with
  | refused status ok accepted => exact .refl s
  | taken t status words good length after => exact after

theorem Answered.state_kept {s : State} {n : Nat} {a : Answer} (h : Answered s n (Kept s) a) : Kept s a.state := by
  cases h with
  | refused status ok accepted => exact .refl s
  | taken t status words good length after => exact after

theorem Answered.kept {s : State} {n : Nat} {a : Answer} (h : Answered s n (Keeps s) a) : Answered s n (Kept s) a := by
  cases h with
  | refused status ok accepted => exact .refused status ok accepted
  | taken t status words good length after => exact .taken t status words good length after.toKept

theorem examine_answered {s : State} {n : Nat} {R : State → Prop} {owner : List Word16 → State → Answer}
    (h : ∀ ws, Answered s n R (owner ws s)) : Answered s n R (examine owner s) := by
  unfold examine
  split
  · exact .refusal rfl
  · split
    · exact .refusal rfl
    · exact h _

/-- Consuming a CLOSE keeps of the answer's state what the answer has kept. -/
theorem consume_after (code : BitVec 8) (a : Answer) : Keeps a.state (State.consume code a) :=
  (putControl_keeps _ 0).trans (setCtl_keeps (fun ⟨events, full, _⟩ => ⟨events, full, Nat.zero_le _⟩) rfl rfl)

theorem forwardClose_keeps (s : State) (a : NodeAddr) (code low : BitVec 8) : Keeps s (s.forwardClose a code low) :=
  (putControl_keeps _ _).trans (clearBuffer_keeps _)

theorem overlapClose_keeps (s : State) (a : NodeAddr) : Keeps s (s.overlapClose a) :=
  (putControl_keeps _ _).trans (clearBuffer_keeps _)

end Sys2Proof.Machine
end

section
/-! The page scheduler in the terms of the statements: zone sets bit by bit, records found by id, players handed over
and given back, the loss and the taking of zones, revocation, and the end of a page. Ids are distinct throughout. -/

namespace Sys2Proof.Machine

/-! ### Zone sets -/

theorem zoneBit_getLsbD (y z : Fin 24) : (zoneBit y).getLsbD z.val = decide (y = z) := by
  rw [zoneBit, BitVec.getLsbD_twoPow]
  simp [Fin.ext_iff]

theorem zonesWhere_getLsbD (f : Fin 24 → Bool) (z : Fin 24) : (zonesWhere f).getLsbD z.val = f z := by
  have fold (l : List (Fin 24)) (zs : ZoneSet) :
      (l.foldl (fun zs y => if f y then zs ||| zoneBit y else zs) zs).getLsbD z.val =
        (zs.getLsbD z.val || (decide (z ∈ l) && f z)) := by
    induction l generalizing zs with
    | nil => simp
    | cons y rest ih =>
      rw [List.foldl_cons, ih]
      by_cases hy : z = y
      · subst hy
        cases hf : f z
        · rw [if_neg (by simp)]
          simp
        · rw [if_pos rfl, BitVec.getLsbD_or, zoneBit_getLsbD]
          simp
      · have rest' : decide (z ∈ y :: rest) = decide (z ∈ rest) := by simp [hy]
        rw [rest']
        cases hf : f y
        · rw [if_neg (by simp)]
        · rw [if_pos rfl, BitVec.getLsbD_or, zoneBit_getLsbD, decide_eq_false fun same => hy same.symm, Bool.or_false]
  have all : z ∈ allZones := List.mem_ofFn.mpr ⟨z, rfl⟩
  rw [zonesWhere, fold]
  simp [all]

theorem zoneSet_ext {a b : ZoneSet} (h : ∀ z : Fin 24, a.getLsbD z.val = b.getLsbD z.val) : a = b :=
  BitVec.eq_of_getLsbD_eq fun i hi => h ⟨i, hi⟩

theorem and_eq_zero_iff {a b : ZoneSet} :
    a &&& b = 0 ↔ ∀ z : Fin 24, a.getLsbD z.val = true → b.getLsbD z.val = false := by
  constructor
  · intro h z hz
    have := congrArg (fun x : ZoneSet => x.getLsbD z.val) h
    simpa [hz] using this
  · intro h
    apply zoneSet_ext
    intro z
    have := h z
    cases hz : a.getLsbD z.val <;> simp_all

theorem and_not_eq_zero_iff {a b : ZoneSet} :
    a &&& ~~~b = 0 ↔ ∀ z : Fin 24, a.getLsbD z.val = true → b.getLsbD z.val = true := by
  rw [and_eq_zero_iff]
  have bit (z : Fin 24) : (~~~b).getLsbD z.val = false ↔ b.getLsbD z.val = true := by simp
  simp only [bit]

@[simp] theorem zoneSet_not_getLsbD (a : ZoneSet) (z : Fin 24) : (~~~a).getLsbD z.val = !a.getLsbD z.val := by simp

theorem and_not_of_and_zero {a b : ZoneSet} (h : a &&& b = 0) : a &&& ~~~b = a := by
  apply zoneSet_ext
  intro z
  have := and_eq_zero_iff.mp h z
  cases hz : a.getLsbD z.val <;> simp_all

/-! ### Records found by id -/

/-- The ids of the page queue are distinct. -/
def State.pageIdsApart (s : State) : Prop := (s.pages.queue.map (·.id)).Nodup

theorem State.pagesOk.idsApart {s : State} (h : s.pagesOk) : s.pageIdsApart := h.2.1

theorem State.pageIdsApart.eq {s : State} (h : s.pageIdsApart) {p q : Page} (hp : p ∈ s.pages.queue)
    (hq : q ∈ s.pages.queue) (id : p.id = q.id) : p = q :=
  List.inj_on_of_nodup_map h hp hq id

theorem page_some {s : State} {id : PageId} {p : Page} (h : s.page id = some p) : p ∈ s.pages.queue ∧ p.id = id :=
  ⟨List.mem_of_find?_eq_some h, by simpa using List.find?_some h⟩

theorem page_of_mem {s : State} (h : s.pageIdsApart) {p : Page} (hp : p ∈ s.pages.queue) : s.page p.id = some p := by
  cases found : s.page p.id with
  | none => exact absurd (beq_self_eq_true p.id) (List.find?_eq_none.mp found p hp)
  | some q =>
    obtain ⟨hq, id⟩ := page_some found
    rw [h.eq hq hp id]

theorem page_none_iff {s : State} {id : PageId} : s.page id = none ↔ ∀ p ∈ s.pages.queue, p.id ≠ id := by
  simp [State.page]

/-- Changing the records of an id that one record has changes that record. -/
theorem map_id_eq {s : State} (h : s.pageIdsApart) {p : Page} (hp : p ∈ s.pages.queue) (f g : Page → Page)
    (same : f p = g p) :
    s.pages.queue.map (fun q => if q.id = p.id then f q else q) =
      s.pages.queue.map (fun q => if q.id = p.id then g q else q) := by
  apply List.map_congr_left
  intro q hq
  by_cases id : q.id = p.id
  · rw [if_pos id, if_pos id, h.eq hq hp id, same]
  · rw [if_neg id, if_neg id]

theorem updatePage_eq (s : State) (id : PageId) (f : Page → Page) : s.updatePage id f = s.withPage id f := rfl

theorem withPage_congr {s : State} (h : s.pageIdsApart) {p : Page} (hp : p ∈ s.pages.queue) (f g : Page → Page)
    (same : f p = g p) : s.withPage p.id f = s.withPage p.id g := by
  rw [State.withPage, State.withPage, map_id_eq h hp f g same]

theorem withPage_withPage (s : State) (id : PageId) (f g : Page → Page) (hf : ∀ p, (f p).id = p.id) :
    (s.withPage id f).withPage id g = s.withPage id (g ∘ f) := by
  have map : (s.pages.queue.map (fun q => if q.id = id then f q else q)).map (fun q => if q.id = id then g q else q) =
      s.pages.queue.map (fun q => if q.id = id then (g ∘ f) q else q) := by
    rw [List.map_map]
    apply List.map_congr_left
    intro q _
    by_cases hq : q.id = id
    · simp [hq, hf]
    · simp [hq]
  rw [State.withPage, State.withPage, State.withPage]
  simp only [map]

theorem withPage_idsApart {s : State} (h : s.pageIdsApart) (id : PageId) (f : Page → Page) (hf : ∀ p, (f p).id = p.id) :
    (s.withPage id f).pageIdsApart := by
  have same : (s.withPage id f).pages.queue.map (·.id) = s.pages.queue.map (·.id) := by
    simp only [State.withPage, List.map_map]
    apply List.map_congr_left
    intro q _
    by_cases hq : q.id = id
    · simp [hq, hf]
    · simp [hq]
  rw [State.pageIdsApart, same]
  exact h

theorem mem_withPage {s : State} {p : Page} (hp : p ∈ s.pages.queue) (f : Page → Page) :
    f p ∈ (s.withPage p.id f).pages.queue :=
  List.mem_map.mpr ⟨p, hp, if_pos rfl⟩

/-! ### Players -/

theorem dropPlayer_eq (b : Burst) (x : Fin 4) : b.dropPlayer x = b.staleFor x := by
  obtain ⟨kind, elapsed⟩ := b
  cases kind with
  | playerRead q pos off len stale =>
    by_cases own : q = x
    · have stays : (stale || q == x) = true := by rw [own, beq_self_eq_true, Bool.or_true]
      simp only [Burst.dropPlayer, Burst.staleFor, if_pos own, stays]
    · have stays : (stale || q == x) = stale := by rw [beq_eq_false_iff_ne.mpr own, Bool.or_false]
      simp only [Burst.dropPlayer, Burst.staleFor, if_neg own, stays]
  | captureWrite cells => rfl
  | bufferWrite cells => rfl

theorem setPlayer_dropBurst (s : State) (x : Fin 4) (y : Player) : (s.dropBurst x).setPlayer x y = s.withPlayer x y := by
  have burst : s.clips.burst.map (fun b => b.dropPlayer x) = s.clips.burst.map (fun b => b.staleFor x) := by
    simp only [dropPlayer_eq]
  unfold State.withPlayer
  rw [← burst]
  rfl

theorem releasePlayer_eq (s : State) (x : Fin 4) : s.releasePlayer x = s.playerFreed (some x) :=
  setPlayer_dropBurst s x _

theorem handSequence_eq (s : State) (x : Fin 4) (l : List (Fin 256)) (chime : Bool) :
    s.handSequence x l chime = s.playerHanded x l chime :=
  setPlayer_dropBurst s x _

@[simp] theorem playerFreed_pages (s : State) (x : Option (Fin 4)) : (s.playerFreed x).pages = s.pages := by
  cases x <;> rfl

/-- Giving a player back writes the clip engine alone. -/
theorem playerFreed_eq (s : State) (x : Option (Fin 4)) : s.playerFreed x = s.setClips (s.playerFreed x).clips := by
  cases x <;> rfl

theorem playerFreed_memory (s : State) (x : Option (Fin 4)) : (s.playerFreed x).clips.memory = s.clips.memory := by
  cases x <;> rfl

theorem playerFreed_withEvent (s : State) (k : EventKind) (n d : Nat) (x : Option (Fin 4)) :
    (s.withEvent k n d).playerFreed x = (s.playerFreed x).withEvent k n d := by
  cases x <;> rfl

/-- A page event is posted with the page's id. -/
theorem post_page (s : State) (k : EventKind) (id : PageId) (d : Nat) :
    s.post k id (BitVec.ofNat 4 d) = s.withEvent k id.toNat d := by
  rw [← post_eq, BitVec.ofNat_toNat, BitVec.setWidth_eq]

theorem freePage_eq {s : State} (h : s.pageIdsApart) {p : Page} (hp : p ∈ s.pages.queue) :
    s.freePage p.id = (s.playerFreed p.player).withPage p.id (fun q => { q with player := none }) := by
  simp only [State.freePage, page_of_mem h hp]
  cases player : p.player with
  | none =>
    have same : s.withPage p.id (fun q => { q with player := none }) = s.withPage p.id id :=
      withPage_congr h hp _ _ (by rw [← player]; rfl)
    have unchanged : s.withPage p.id id = s := updatePage_id s p.id id fun _ => rfl
    exact (same.trans unchanged).symm
  | some x => simp only [releasePlayer_eq, updatePage_eq]

/-! ### The end of a page -/

theorem filter_withPage (l : List Page) (id : PageId) (f : Page → Page) (hf : ∀ p, (f p).id = p.id) :
    (l.map (fun q => if q.id = id then f q else q)).filter (fun q => q.id != id) = l.filter (fun q => q.id != id) := by
  induction l with
  | nil => rfl
  | cons q rest ih =>
    by_cases hq : q.id = id
    · simpa [hq, hf] using ih
    · simpa [hq] using ih

/-- The state without the record of a page, its player given back and its end posted: `pageOver` before the pass it
makes due. -/
def State.pageGone (s : State) (p : Page) (cause : Nat) : State :=
  let t := s.playerFreed p.player
  State.withEvent { t with pages := { t.pages with queue := s.pages.queue.filter (fun q => q.id != p.id) } }
    .pageEnded p.id.toNat cause

theorem pageGone_passDue (s : State) (p : Page) (cause : Nat) : (s.pageGone p cause).passDue = s.pageOver p cause := rfl

theorem removePage_eq {s : State} (h : s.pageIdsApart) {p : Page} (hp : p ∈ s.pages.queue) (cause : Nat) :
    s.removePage p.id (BitVec.ofNat 4 cause) = s.pageGone p cause := by
  have queue : (s.freePage p.id).pages.queue.filter (fun q => q.id != p.id) =
      s.pages.queue.filter (fun q => q.id != p.id) := by
    rw [freePage_eq h hp]
    simpa [State.withPage] using filter_withPage s.pages.queue p.id (fun q => { q with player := none }) fun _ => rfl
  unfold State.removePage
  simp only [queue, post_page]
  rw [freePage_eq h hp]
  rfl

theorem endPage_eq {s : State} (h : s.pageIdsApart) {p : Page} (hp : p ∈ s.pages.queue) (cause : Nat) :
    s.endPage p.id (BitVec.ofNat 4 cause) = s.pageOver p cause := by
  rw [State.endPage, removePage_eq h hp]
  rfl

/-- A page that is not in the queue ends without trace in the queue. -/
theorem freePage_none {s : State} {id : PageId} (h : s.page id = none) : s.freePage id = s := by
  rw [State.freePage, h]

/-! ### The loss of zones -/

theorem suspendedBy_zero (q : Page) : q.suspendedBy 0 = false := by
  simp [Page.suspendedBy]

theorem afterLoss_zero (q : Page) : q.afterLoss 0 = q := by
  have granted : q.granted &&& ~~~(0 : ZoneSet) = q.granted := and_not_of_and_zero BitVec.and_zero
  rw [Page.afterLoss, suspendedBy_zero, if_neg (by simp), granted]

@[simp] theorem afterLoss_id (q : Page) (lost : ZoneSet) : (q.afterLoss lost).id = q.id := by
  unfold Page.afterLoss; split <;> rfl

/-- The state after one page has lost zones: `afterLosses` for a single record. -/
def State.afterLossOf (s : State) (p : Page) (lost : ZoneSet) : State :=
  let t := (if p.suspendedBy lost then s.playerFreed p.player else s).withPage p.id (fun q => q.afterLoss lost)
  if p.suspendedBy lost && !p.suspPosted then t.withEvent .pageSuspended p.id.toNat 0 else t

theorem losePage_eq {s : State} (h : s.pageIdsApart) {p : Page} (hp : p ∈ s.pages.queue) (lost : ZoneSet) (b : Bool) :
    losePage lost p.id (s, b) = (s.afterLossOf p lost, b || p.suspendedBy lost) := by
  have found := page_of_mem h hp
  have suspended : s.suspendPage p.id =
      let t := (s.playerFreed p.player).withPage p.id
        (fun q => { q with
          state := .suspended, granted := 0, joining := 0, player := none, restartIn := none, suspPosted := true })
      if p.suspPosted then t else t.withEvent .pageSuspended p.id.toNat 0 := by
    have post (t : State) : t.post .pageSuspended p.id 0 = t.withEvent .pageSuspended p.id.toNat 0 :=
      post_page t .pageSuspended p.id 0
    simp only [State.suspendPage, found, freePage_eq h hp, updatePage_eq, post, Option.any_some]
    rw [withPage_withPage _ _ (fun q => { q with player := none }) _ fun _ => rfl]
    rfl
  have suspends : p.suspends lost = p.suspendedBy lost := rfl
  simp only [losePage, found, suspends]
  cases hs : p.suspendedBy lost with
  | true =>
    have freedIds : (s.playerFreed p.player).pageIdsApart := by rw [State.pageIdsApart, playerFreed_pages]; exact h
    have same := withPage_congr freedIds (p := p) (by simpa using hp)
      (fun q => { q with
          state := .suspended, granted := 0, joining := 0, player := none, restartIn := none, suspPosted := true })
      (fun q => q.afterLoss lost) (by simp [Page.afterLoss, hs])
    simp only [if_true, suspended, State.afterLossOf, hs, Bool.true_and, Bool.or_true, same]
    cases p.suspPosted <;> rfl
  | false =>
    have loss : p.afterLoss lost = { p with granted := p.granted &&& ~~~lost } := by simp [Page.afterLoss, hs]
    simp only [State.afterLossOf, hs, Bool.false_eq_true, if_false, Bool.false_and, Bool.or_false]
    by_cases none : p.granted &&& lost = 0
    · have same : p.afterLoss lost = p := by rw [loss, and_not_of_and_zero none]
      have unchanged : s.withPage p.id (fun q => q.afterLoss lost) = s := by
        rw [withPage_congr h hp _ id (by simpa using same)]
        exact updatePage_id s p.id id fun _ => rfl
      rw [if_pos none, unchanged]
    · rw [if_neg none, updatePage_eq, withPage_congr h hp _ (fun q => q.afterLoss lost) loss.symm]

/-- The state after the records of a list have lost zones: `afterLosses`, one record after another. -/
def State.afterLossesOf (s : State) (l : List Page) (lost : Page → ZoneSet) : State :=
  let out := l.filter (fun q => q.suspendedBy (lost q))
  let t := out.foldl (fun t q => t.playerFreed q.player) s
  (out.filter (fun q => !q.suspPosted)).foldl (fun t q => t.withEvent .pageSuspended q.id.toNat 0)
    { t with pages := { s.pages with
        queue := s.pages.queue.map (fun q => if q.id ∈ l.map (·.id) then q.afterLoss (lost q) else q) } }

/-- Players given back, over a list of records, write the clip engine alone. -/
theorem foldl_playerFreed (l : List Page) (s : State) :
    l.foldl (fun t q => t.playerFreed q.player) s =
      s.setClips (l.foldl (fun t q => t.playerFreed q.player) s).clips := by
  induction l generalizing s with
  | nil => rfl
  | cons q rest ih => rw [List.foldl_cons, ih, playerFreed_eq s q.player]; rfl

theorem foldl_playerFreed_pages (l : List Page) (s : State) (x : Pages) :
    l.foldl (fun t q => t.playerFreed q.player) (s.setPages x) =
      (l.foldl (fun t q => t.playerFreed q.player) s).setPages x := by
  induction l generalizing s with
  | nil => rfl
  | cons q rest ih =>
    have one : (s.setPages x).playerFreed q.player = (s.playerFreed q.player).setPages x := by
      cases q.player <;> rfl
    rw [List.foldl_cons, List.foldl_cons, one, ih]

theorem foldl_playerFreed_withEvent (l : List Page) (s : State) (k : EventKind) (n d : Nat) :
    l.foldl (fun t q => t.playerFreed q.player) (s.withEvent k n d) =
      (l.foldl (fun t q => t.playerFreed q.player) s).withEvent k n d := by
  induction l generalizing s with
  | nil => rfl
  | cons q rest ih => rw [List.foldl_cons, List.foldl_cons, playerFreed_withEvent, ih]

/-- The first record loses its zones, then the others theirs. -/
theorem afterLossesOf_cons {s : State} {p : Page} {l : List Page} (fresh : p.id ∉ l.map (·.id)) (lost : Page → ZoneSet)
    (h : s.pageIdsApart) (hp : p ∈ s.pages.queue) :
    (s.afterLossOf p (lost p)).afterLossesOf l lost = s.afterLossesOf (p :: l) lost := by
  have queue : (s.pages.queue.map (fun q => if q.id = p.id then q.afterLoss (lost p) else q)).map
        (fun q => if q.id ∈ l.map (·.id) then q.afterLoss (lost q) else q) =
      s.pages.queue.map (fun q => if q.id ∈ (p :: l).map (·.id) then q.afterLoss (lost q) else q) := by
    rw [List.map_map]
    apply List.map_congr_left
    intro q hq
    by_cases id : q.id = p.id
    · have same := h.eq hq hp id
      subst same
      have after : (q.afterLoss (lost q)).id ∉ l.map (·.id) := by rwa [afterLoss_id]
      simp only [Function.comp_apply, if_true, if_neg after, List.map_cons, List.mem_cons, true_or]
    · simp [id]
  cases hs : p.suspendedBy (lost p) with
  | false =>
    simp only [State.afterLossOf, State.afterLossesOf, hs, Bool.false_eq_true, if_false, Bool.false_and,
      List.filter_cons]
    rw [State.withPage, queue.symm]
    simp only [← State.setPages.eq_1, foldl_playerFreed_pages]
    rfl
  | true =>
    have first (t : State) (x : Pages) : (t.setPages x).playerFreed p.player = (t.playerFreed p.player).setPages x := by
      cases p.player <;> rfl
    have setAgain (t : State) (x y : Pages) : (t.setPages x).setPages y = t.setPages y := rfl
    simp only [State.afterLossOf, State.afterLossesOf, hs, if_true, Bool.true_and, List.filter_cons, List.foldl_cons]
    cases posted : p.suspPosted with
    | true =>
      simp only [Bool.not_true, Bool.false_eq_true, if_false, State.withPage, playerFreed_pages]
      rw [← queue]
      simp only [← State.setPages.eq_1, foldl_playerFreed_pages, setAgain]
    | false =>
      simp only [Bool.not_false, if_true, State.withPage, playerFreed_pages, List.foldl_cons]
      rw [foldl_playerFreed_withEvent]
      have move (t : State) (x : Pages) : { t.withEvent .pageSuspended p.id.toNat 0 with pages := x } =
        (t.setPages x).withEvent .pageSuspended p.id.toNat 0 := rfl
      rw [move]
      have pages : ((({ s.playerFreed p.player with pages :=
            { s.pages with queue := s.pages.queue.map fun q => if q.id = p.id then q.afterLoss (lost p) else q } } :
            State)).withEvent .pageSuspended p.id.toNat 0).pages =
          { s.pages with queue := s.pages.queue.map fun q => if q.id = p.id then q.afterLoss (lost p) else q } := rfl
      rw [pages, ← queue]
      simp only [← State.setPages.eq_1, foldl_playerFreed_pages, setAgain]

theorem afterLossOf_queue (s : State) (p : Page) (lost : ZoneSet) :
    (s.afterLossOf p lost).pages.queue = s.pages.queue.map (fun q => if q.id = p.id then q.afterLoss lost else q) := by
  unfold State.afterLossOf
  split <;> split <;> simp [State.withPage, State.withEvent]

theorem afterLossOf_idsApart {s : State} (h : s.pageIdsApart) (p : Page) (lost : ZoneSet) :
    (s.afterLossOf p lost).pageIdsApart := by
  have same := withPage_idsApart h p.id (fun q => q.afterLoss lost) fun q => afterLoss_id q lost
  rwa [State.pageIdsApart, afterLossOf_queue]

/-- Losses of zones, one record after another: the fold of the model. -/
theorem foldl_losePage {s : State} (h : s.pageIdsApart) (l : List Page) (lost : Page → ZoneSet)
    (apart : (l.map (·.id)).Nodup) (sub : ∀ p ∈ l, p ∈ s.pages.queue) (b : Bool)
    (step : State × Bool → PageId → State × Bool)
    (hstep : ∀ (t : State) (c : Bool) (p : Page), p ∈ l → t.pageIdsApart → p ∈ t.pages.queue → PagesFrame s t →
      step (t, c) p.id = losePage (lost p) p.id (t, c)) :
    (l.map (·.id)).foldl step (s, b) = (s.afterLossesOf l lost, b || l.any (fun p => p.suspendedBy (lost p))) := by
  induction l generalizing s b with
  | nil =>
    have unchanged : s.afterLossesOf [] lost = s := by
      have map : s.pages.queue.map (fun q => if q.id ∈ ([] : List Page).map (·.id) then q.afterLoss (lost q) else q) =
          s.pages.queue := by simp
      simp only [State.afterLossesOf, map]
      rfl
    simp [unchanged]
  | cons p rest ih =>
    obtain ⟨fresh, apart'⟩ := List.nodup_cons.mp apart
    have hp := sub p List.mem_cons_self
    have loss := losePage_eq h hp (lost p) b
    have frame : PagesFrame s (s.afterLossOf p (lost p)) := by
      have := (losePage_pagesOnly (lost p) p.id (s, b)).toPagesFrame
      rwa [loss] at this
    rw [List.map_cons, List.foldl_cons, hstep s b p List.mem_cons_self h hp (.refl s), loss,
      ih (afterLossOf_idsApart h p _) apart' _ _ _]
    · rw [afterLossesOf_cons fresh lost h hp, List.any_cons, Bool.or_assoc]
    · intro q hq
      rw [afterLossOf_queue]
      have other : q.id ≠ p.id := fun same => fresh (List.mem_map.mpr ⟨q, hq, same⟩)
      exact List.mem_map.mpr ⟨q, sub q (List.mem_cons_of_mem _ hq), if_neg other⟩
    · intro t c q hq ids mem k
      exact hstep t c q (List.mem_cons_of_mem _ hq) ids mem (frame.trans k)

theorem afterLossesOf_queue (s : State) (lost : Page → ZoneSet) :
    s.afterLossesOf s.pages.queue lost = s.afterLosses lost := by
  have map : s.pages.queue.map (fun q => if q.id ∈ s.pages.queue.map (·.id) then q.afterLoss (lost q) else q) =
      s.pages.queue.map (fun q => q.afterLoss (lost q)) :=
    List.map_congr_left fun q hq => if_pos (List.mem_map_of_mem hq)
  simp only [State.afterLossesOf, State.afterLosses, map]

/-- Revocation: each record loses the held zones that are covered or locked against it (R118). -/
theorem revoke_eq {s : State} (h : s.pageIdsApart) : s.revoke = s.afterLosses s.revokedZones := by
  have fold := foldl_losePage h s.pages.queue s.revokedZones h (fun _ hp => hp) false
    (fun r id => match r.1.page id with
      | some p => losePage (r.1.revokedZones p) id r
      | none => r)
    (fun t c p _ ids mem frame => by
      have same : t.revokedZones p = s.revokedZones p := by
        simp only [State.revokedZones, State.covered, State.lockedAgainst, State.zoneFields, State.activeBank,
          frame.alarm, frame.mix, frame.scene]
      simp only [page_of_mem ids mem, same])
  rw [← afterLossesOf_queue]
  exact congrArg Prod.fst fold

theorem handScheduler_eq {s : State} (h : s.pageIdsApart) : s.handScheduler = s.afterHandOff := by
  have count : s.suspensions s.revokedZones = s.suspendedCount s.revokedZones := List.countP_eq_length_filter
  rw [State.handScheduler, State.afterHandOff, revoke_eq h, count]
  rfl

/-- The taking of zones, and whether it suspends a page (R113, R116). -/
theorem takeZones_eq {s : State} (h : s.pageIdsApart) {p : Page} (zones : ZoneSet) :
    s.takeZones p.id zones =
      (s.afterTaking p zones, s.pages.queue.any (fun q => q.id != p.id && q.suspendedBy zones)) := by
  let others := s.pages.queue.filter (fun q => q.id != p.id)
  have ids : s.pageIds.filter (· != p.id) = others.map (·.id) := by
    simp only [others, State.pageIds, List.filter_map]
    rfl
  have sub : ∀ q ∈ others, q ∈ s.pages.queue := fun q hq => List.mem_of_mem_filter hq
  have apart : (others.map (·.id)).Nodup := h.sublist (List.filter_sublist.map _)
  have fold := foldl_losePage h others (fun _ => zones) apart sub false (fun r q => losePage zones q r)
    fun _ _ _ _ _ _ _ => rfl
  have losses : s.afterLossesOf others (fun _ => zones) = s.afterLosses (fun q => if q.id = p.id then 0 else zones) := by
    have out : others.filter (fun q => q.suspendedBy zones) =
        s.pages.queue.filter (fun q => q.suspendedBy (if q.id = p.id then 0 else zones)) := by
      rw [List.filter_filter]
      apply List.filter_congr
      intro q _
      by_cases id : q.id = p.id
      · rw [if_pos id, suspendedBy_zero, bne_eq_false_iff_eq.mpr id, Bool.and_false]
      · rw [if_neg id, bne_iff_ne.mpr id, Bool.and_true]
    have map : s.pages.queue.map (fun q => if q.id ∈ others.map (·.id) then q.afterLoss zones else q) =
        s.pages.queue.map (fun q => q.afterLoss (if q.id = p.id then 0 else zones)) := by
      apply List.map_congr_left
      intro q hq
      by_cases id : q.id = p.id
      · have absent : q.id ∉ others.map (·.id) := by
          intro mem
          obtain ⟨r, hr, same⟩ := List.mem_map.mp mem
          simp [others, List.mem_filter, same, id] at hr
        rw [if_neg absent, if_pos id, afterLoss_zero]
      · have present : q.id ∈ others.map (·.id) := List.mem_map_of_mem (List.mem_filter.mpr ⟨hq, by simpa using id⟩)
        rw [if_pos present, if_neg id]
    simp only [State.afterLossesOf, State.afterLosses, out, map]
  have hit : others.any (fun q => q.suspendedBy zones) =
      s.pages.queue.any (fun q => q.id != p.id && q.suspendedBy zones) := by
    simp only [others, List.any_filter]
  simp only [State.takeZones, ids, fold, losses, hit, Bool.false_or]
  rfl

end Sys2Proof.Machine
end

section
/-! The grant of a page, the start of a repeat and the end of a gap in the terms of the statements (R113 to R119,
R121). -/

namespace Sys2Proof.Machine

/-! ### The record that takes zones -/

theorem foldl_withEvent_pages (l : List Page) (s : State) (k : EventKind) :
    (l.foldl (fun t q => t.withEvent k q.id.toNat 0) s).pages = s.pages := by
  induction l generalizing s with
  | nil => rfl
  | cons q rest ih => rw [List.foldl_cons, ih]; rfl

theorem afterLosses_pages (s : State) (lost : Page → ZoneSet) :
    (s.afterLosses lost).pages = { s.pages with queue := s.pages.queue.map (fun q => q.afterLoss (lost q)) } := by
  simp only [State.afterLosses, foldl_withEvent_pages]

/-- The queue after one record has taken zones from the others. -/
theorem afterTaking_pages (s : State) (p : Page) (zones : ZoneSet) :
    (s.afterTaking p zones).pages = { s.pages with queue := s.pages.queue.map (fun q =>
      if q.id = p.id then { q with granted := q.granted ||| zones } else q.afterLoss zones) } := by
  have queue : (s.pages.queue.map (fun q => q.afterLoss (if q.id = p.id then 0 else zones))).map
        (fun q => if q.id = p.id then { q with granted := q.granted ||| zones } else q) =
      s.pages.queue.map (fun q =>
        if q.id = p.id then { q with granted := q.granted ||| zones } else q.afterLoss zones) := by
    rw [List.map_map]
    apply List.map_congr_left
    intro q _
    by_cases id : q.id = p.id
    · simp only [Function.comp_apply, if_pos id, afterLoss_zero]
    · simp only [Function.comp_apply, if_neg id, afterLoss_id]
  rw [State.afterTaking, State.withPage]
  simp only [afterLosses_pages, queue]

theorem afterTaking_idsApart {s : State} (h : s.pageIdsApart) (p : Page) (zones : ZoneSet) :
    (s.afterTaking p zones).pageIdsApart := by
  have ids : (s.afterTaking p zones).pages.queue.map (·.id) = s.pages.queue.map (·.id) := by
    rw [afterTaking_pages, List.map_map]
    apply List.map_congr_left
    intro q _
    by_cases id : q.id = p.id
    · simp only [Function.comp_apply, if_pos id]
    · simp only [Function.comp_apply, if_neg id, afterLoss_id]
  rw [State.pageIdsApart, ids]
  exact h

theorem mem_afterTaking {s : State} {p : Page} (hp : p ∈ s.pages.queue) (zones : ZoneSet) :
    { p with granted := p.granted ||| zones } ∈ (s.afterTaking p zones).pages.queue := by
  rw [afterTaking_pages]
  exact List.mem_map.mpr ⟨p, hp, if_pos rfl⟩

/-! ### The start of a repeat -/

/-- A record whose current repeat starts (R119). -/
def Page.restarted (q : Page) : Page :=
  { q with
    restartIn := none, phase := if q.sequence.2 then .chime else .audio
    sourceLoss := if q.clip then q.sourceLoss else 0 }

/-- A player of a page that needs one is handed the page's sequence. -/
def State.sequenceHanded (s : State) (p : Page) : State :=
  match p.player with
  | some x => if p.needsPlayer then s.playerHanded x p.sequence.1 p.sequence.2 else s
  | none => s

theorem startRepeat_eq {s : State} (h : s.pageIdsApart) {p : Page} (hp : p ∈ s.pages.queue) :
    s.startRepeat p.id = (s.withPage p.id Page.restarted).sequenceHanded p := by
  rw [State.startRepeat, page_of_mem h hp]
  unfold State.sequenceHanded
  simp only [handSequence_eq]
  rfl

@[simp] theorem playerHanded_pages (s : State) (x : Fin 4) (l : List (Fin 256)) (c : Bool) :
    (s.playerHanded x l c).pages = s.pages := rfl

@[simp] theorem sequenceHanded_pages (s : State) (p : Page) : (s.sequenceHanded p).pages = s.pages := by
  unfold State.sequenceHanded
  split
  · split <;> rfl
  · rfl

/-! ### The grant (R113, R114) -/

/-- Writing a record, then changing it. -/
theorem withPage_const_withPage (s : State) (q : Page) (f : Page → Page) :
    (s.withPage q.id (fun _ => q)).withPage q.id f = s.withPage q.id (fun _ => f q) := by
  have map : (s.pages.queue.map (fun r => if r.id = q.id then q else r)).map (fun r => if r.id = q.id then f r else r) =
      s.pages.queue.map (fun r => if r.id = q.id then f q else r) := by
    rw [List.map_map]
    apply List.map_congr_left
    intro r _
    by_cases id : r.id = q.id
    · simp only [Function.comp_apply, if_pos id, if_true]
    · simp only [Function.comp_apply, if_neg id]
  simp only [State.withPage, map]

theorem withPage_const_idsApart {s : State} (h : s.pageIdsApart) (q : Page) :
    (s.withPage q.id (fun _ => q)).pageIdsApart := by
  have ids : (s.withPage q.id (fun _ => q)).pages.queue.map (·.id) = s.pages.queue.map (·.id) := by
    simp only [State.withPage, List.map_map]
    apply List.map_congr_left
    intro r _
    by_cases id : r.id = q.id
    · simp only [Function.comp_apply, if_pos id]
      exact id.symm
    · simp only [Function.comp_apply, if_neg id]
  rw [State.pageIdsApart, ids]
  exact h

/-- A record as a grant leaves it. -/
def Page.grantedWith (p : Page) (zones : ZoneSet) (player : Option (Fin 4)) : Page :=
  Page.restarted { p with granted := p.granted ||| zones, player := player, state := .playing, started := true }

/-- The player a grant gives a record. -/
def State.grantPlayer (s : State) (p : Page) : Option (Fin 4) := if p.needsPlayer then s.freePlayer else p.player

/-- The queue and the players after a grant, before PAGE STARTED. -/
def State.granted (s : State) (p : Page) (zones : ZoneSet) : State :=
  let t := s.afterTaking p zones
  let q := p.grantedWith zones (t.grantPlayer p)
  (t.withPage p.id (fun _ => q)).sequenceHanded q

theorem grantPage_eq {s : State} (h : s.pageIdsApart) {p : Page} (hp : p ∈ s.pages.queue) (zones : ZoneSet) :
    s.grantPage p zones =
      (if p.started then s.granted p zones else (s.granted p zones).withEvent .pageStarted p.id.toNat 0,
        s.pages.queue.any (fun q => q.id != p.id && q.suspendedBy zones)) := by
  let t := s.afterTaking p zones
  let q1 : Page := { p with granted := p.granted ||| zones, player := t.grantPlayer p, state := .playing, started := true }
  have tIds : t.pageIdsApart := afterTaking_idsApart h p zones
  have mem := mem_afterTaking hp zones
  have playing : (if p.needsPlayer then t.updatePage p.id (fun q => { q with player := t.freePlayer }) else t).updatePage
      p.id (fun q => { q with state := .playing, started := true }) = t.withPage p.id (fun _ => q1) := by
    by_cases needs : p.needsPlayer = true
    · rw [if_pos needs, updatePage_eq, updatePage_eq, withPage_withPage _ _ (fun q => { q with player := t.freePlayer }) _
        fun _ => rfl]
      refine withPage_congr tIds mem _ _ ?_
      simp only [q1, State.grantPlayer, if_pos needs, Function.comp_apply]
    · rw [if_neg needs, updatePage_eq]
      refine withPage_congr tIds mem _ _ ?_
      simp only [q1, State.grantPlayer, if_neg needs]
  have start := startRepeat_eq (withPage_const_idsApart tIds q1) (mem_withPage mem fun _ => q1)
  have repeats : (t.withPage p.id (fun _ => q1)).startRepeat p.id = s.granted p zones := by
    rw [show q1.id = p.id from rfl, withPage_const_withPage t q1] at start
    rw [start]
    rfl
  have post : (s.granted p zones).post .pageStarted p.id 0 = (s.granted p zones).withEvent .pageStarted p.id.toNat 0 :=
    post_page _ .pageStarted p.id 0
  rw [State.grantPage, takeZones_eq h]
  simp only [playing, repeats, post, t]

/-- The queue after a grant. -/
theorem granted_pages (s : State) (p : Page) (zones : ZoneSet) :
    (s.granted p zones).pages = { s.pages with queue := s.pages.queue.map (fun q =>
      if q.id = p.id then p.grantedWith zones ((s.afterTaking p zones).grantPlayer p) else q.afterLoss zones) } := by
  simp only [State.granted, sequenceHanded_pages, State.withPage, afterTaking_pages, List.map_map]
  congr 1
  apply List.map_congr_left
  intro q hq
  by_cases id : q.id = p.id
  · simp only [Function.comp_apply, if_pos id]
  · simp only [Function.comp_apply, if_neg id, afterLoss_id]

/-- A walk examines a record that is not PLAYING (R113). -/
theorem examinePage_idle {s : State} (h : s.pageIdsApart) {p : Page} (hp : p ∈ s.pages.queue) (b : Bool)
    (idle : p.state ≠ .playing) :
    examinePage p.id (s, b) =
      if p.needsPlayer && s.freePlayer.isNone then (s, b)
      else if (if p.whole then s.grantableZones p = p.zones else s.grantableZones p ≠ 0) then
        ((s.grantPage p (s.grantableZones p)).1, b || (s.grantPage p (s.grantableZones p)).2)
      else (s, b) := by
  rw [examinePage, page_of_mem h hp]
  cases state : p.state with
  | playing => exact absurd state idle
  | waiting => simp only [state]
  | suspended => simp only [state]

/-- A walk examines a PLAYING record (R115). -/
theorem examinePage_playing {s : State} (h : s.pageIdsApart) {p : Page} (hp : p ∈ s.pages.queue) (b : Bool)
    (playing : p.state = .playing) :
    examinePage p.id (s, b) =
      if p.whole then (s, b)
      else if p.clip then (s.withPage p.id (fun q => { q with joining := s.grantableZones p }), b)
      else
        ((s.afterTaking p (s.grantableZones p)).withPage p.id (fun q => { q with joining := 0 }),
          b || s.pages.queue.any (fun q => q.id != p.id && q.suspendedBy (s.grantableZones p))) := by
  rw [examinePage, page_of_mem h hp]
  simp only [playing, takeZones_eq h, updatePage_eq]

end Sys2Proof.Machine
end

section
/-! The page scheduler keeps the invariants: the shapes of the queue's changes that keep `pagesOk` and `zonesFree`, and
one lemma for each operation of the scheduler. -/

namespace Sys2Proof.Machine

/-! ### Changes of the queue -/

/-- What `pagesOk` says of a single record: it holds zones of its set alone, and, when it is not PLAYING, nothing. -/
def Page.holdsRightly (p : Page) : Prop :=
  p.granted &&& ~~~p.zones = 0 ∧ (p.state ≠ .playing → p.granted = 0 ∧ p.joining = 0 ∧ p.player = none)

/-- The record keeps its id and its place in the queue's order. -/
def Page.sameKey (p q : Page) : Prop := q.id = p.id ∧ q.priority = p.priority ∧ q.arrival = p.arrival

/-- `pagesOk` survives a change of every record in place that keeps zones and players with one record each. -/
theorem pagesOk_map {s t : State} (g : Page → Page) (queue : t.pages.queue = s.pages.queue.map g)
    (arrival : t.pages.nextArrival = s.pages.nextArrival) (key : ∀ p ∈ s.pages.queue, p.sameKey (g p))
    (h : s.pagesOk)
    (apart : ∀ p ∈ s.pages.queue, ∀ q ∈ s.pages.queue, p.id ≠ q.id → p.granted &&& q.granted = 0 →
      (g p).granted &&& (g q).granted = 0)
    (players : ∀ p ∈ s.pages.queue, ∀ q ∈ s.pages.queue, p.id ≠ q.id → p.player = none ∨ p.player ≠ q.player →
      (g p).player = none ∨ (g p).player ≠ (g q).player)
    (each : ∀ p ∈ s.pages.queue, p.holdsRightly → (g p).holdsRightly) : t.pagesOk := by
  obtain ⟨length, ids, order, arrivals, zones, taken, single⟩ := h
  have distinct : s.pages.queue.Pairwise (fun p q => p.id ≠ q.id) := List.pairwise_map.mp ids
  have ids' : t.pages.queue.map (·.id) = s.pages.queue.map (·.id) := by
    rw [queue, List.map_map]
    exact List.map_congr_left fun p hp => (key p hp).1
  refine ⟨by rw [queue, List.length_map]; exact length, ids' ▸ ids, ?_, ?_, ?_, ?_, ?_⟩
  · rw [queue, List.pairwise_map]
    refine order.imp_of_mem fun {p q} hp hq place => ?_
    obtain ⟨-, prioP, arrP⟩ := key p hp
    obtain ⟨-, prioQ, arrQ⟩ := key q hq
    rw [prioP, prioQ, arrP, arrQ]
    exact place
  · intro q hq
    rw [queue] at hq
    obtain ⟨p, hp, rfl⟩ := List.mem_map.mp hq
    rw [arrival, (key p hp).2.2]
    exact arrivals p hp
  · rw [queue, List.pairwise_map]
    exact (distinct.and zones).imp_of_mem fun hp hq ⟨ne, old⟩ => apart _ hp _ hq ne old
  · rw [queue, List.pairwise_map]
    exact (distinct.and taken).imp_of_mem fun hp hq ⟨ne, old⟩ => players _ hp _ hq ne old
  · intro q hq
    rw [queue] at hq
    obtain ⟨p, hp, rfl⟩ := List.mem_map.mp hq
    exact each p hp (single p hp)

/-- A record that has taken nothing: the same key and zone set, held zones and player among those it had. -/
structure Page.Shrinks (p q : Page) : Prop where
  key : p.sameKey q
  zones : q.zones = p.zones
  granted : ∀ z : Fin 24, q.granted.getLsbD z.val = true → p.granted.getLsbD z.val = true
  player : q.player = none ∨ q.player = p.player
  idle : (p.state ≠ .playing → p.granted = 0 ∧ p.joining = 0 ∧ p.player = none) →
    q.state ≠ .playing → q.granted = 0 ∧ q.joining = 0 ∧ q.player = none

theorem Page.Shrinks.of_same {p q : Page} (key : p.sameKey q) (zones : q.zones = p.zones) (granted : q.granted = p.granted)
    (player : q.player = p.player) (state : q.state = p.state) (joining : p.state ≠ .playing → q.joining = p.joining) :
    p.Shrinks q where
  key := key
  zones := zones
  granted := fun z hz => granted ▸ hz
  player := .inr player
  idle := fun rightly idle => by
    rw [state] at idle
    rw [granted, player, joining idle]
    exact rightly idle

theorem Page.Shrinks.refl (p : Page) : p.Shrinks p := .of_same ⟨rfl, rfl, rfl⟩ rfl rfl rfl rfl fun _ => rfl

theorem Page.Shrinks.holdsRightly {p q : Page} (h : p.Shrinks q) (rightly : p.holdsRightly) : q.holdsRightly := by
  refine ⟨?_, h.idle rightly.2⟩
  rw [and_not_eq_zero_iff, h.zones]
  exact fun z hz => and_not_eq_zero_iff.mp rightly.1 z (h.granted z hz)

theorem Page.Shrinks.apart {p p' q q' : Page} (h : p.Shrinks p') (k : q.Shrinks q') (apart : p.granted &&& q.granted = 0) :
    p'.granted &&& q'.granted = 0 := by
  rw [and_eq_zero_iff]
  intro z hz
  cases hq : q'.granted.getLsbD z.val with
  | false => rfl
  | true => exact absurd (k.granted z hq) (by rw [and_eq_zero_iff.mp apart z (h.granted z hz)]; decide)

theorem Page.Shrinks.players {p p' q q' : Page} (h : p.Shrinks p') (k : q.Shrinks q')
    (apart : p.player = none ∨ p.player ≠ q.player) : p'.player = none ∨ p'.player ≠ q'.player := by
  rcases h.player with free | same
  · exact .inl free
  · rcases apart with free | other
    · exact .inl (same.trans free)
    · rcases k.player with free | same'
      · cases own : p'.player with
        | none => exact .inl rfl
        | some x => exact .inr (by rw [free]; simp)
      · exact .inr (by rw [same, same']; exact other)

/-- A loss of zones takes nothing. -/
theorem afterLoss_shrinks (p : Page) (lost : ZoneSet) : p.Shrinks (p.afterLoss lost) := by
  unfold Page.afterLoss
  split
  · exact ⟨⟨rfl, rfl, rfl⟩, rfl, fun z hz => absurd hz (by simp), .inl rfl, fun _ _ => ⟨rfl, rfl, rfl⟩⟩
  · refine ⟨⟨rfl, rfl, rfl⟩, rfl, fun z hz => ?_, .inr rfl, fun rightly idle => ?_⟩
    · rw [BitVec.getLsbD_and, Bool.and_eq_true] at hz
      exact hz.1
    · obtain ⟨granted, joining, player⟩ := rightly idle
      exact ⟨(congrArg (· &&& ~~~lost) granted).trans BitVec.zero_and, joining, player⟩

/-- A zone that a record holds after a loss is none of the lost ones. -/
theorem afterLoss_granted {p : Page} {lost : ZoneSet} {z : Fin 24} (h : (p.afterLoss lost).granted.getLsbD z.val = true) :
    p.granted.getLsbD z.val = true ∧ lost.getLsbD z.val = false := by
  unfold Page.afterLoss at h
  split at h
  · exact absurd h (by simp)
  · rw [BitVec.getLsbD_and, Bool.and_eq_true, zoneSet_not_getLsbD, Bool.not_eq_true'] at h
    exact h

/-- Nothing is taken in the whole queue. -/
theorem pagesOk_shrinks {s t : State} (g : Page → Page) (queue : t.pages.queue = s.pages.queue.map g)
    (arrival : t.pages.nextArrival = s.pages.nextArrival) (h : ∀ p ∈ s.pages.queue, p.Shrinks (g p)) (ok : s.pagesOk) :
    t.pagesOk :=
  pagesOk_map g queue arrival (fun p hp => (h p hp).key) ok (fun p hp q hq _ => (h p hp).apart (h q hq))
    (fun p hp q hq _ => (h p hp).players (h q hq)) fun p hp => (h p hp).holdsRightly

/-- One record takes zones that every other loses, and a player that no other has. -/
structure Takes (s t : State) (p p' : Page) (zones : ZoneSet) : Prop where
  mem : p ∈ s.pages.queue
  queue : t.pages.queue = s.pages.queue.map (fun q => if q.id = p.id then p' else q.afterLoss zones)
  arrival : t.pages.nextArrival = s.pages.nextArrival
  key : p.sameKey p'
  sameZones : p'.zones = p.zones
  playing : p'.state = .playing
  own : zones &&& ~~~p.zones = 0
  granted : p'.granted = p.granted ||| zones
  player : ∀ q ∈ s.pages.queue, q.id ≠ p.id → p'.player = none ∨ p'.player ≠ (q.afterLoss zones).player

theorem Takes.pagesOk {s t : State} {p p' : Page} {zones : ZoneSet} (h : Takes s t p p' zones) (ok : s.pagesOk) :
    t.pagesOk := by
  obtain ⟨hp, queue, arrival, key, sameZones, playing, own, granted, player⟩ := h
  have ids := ok.idsApart
  have at_p {q : Page} (hq : q ∈ s.pages.queue) (id : q.id = p.id) : q = p := ids.eq hq hp id
  have loses (q : Page) (hq : p.granted &&& q.granted = 0) : p'.granted &&& (q.afterLoss zones).granted = 0 := by
    rw [and_eq_zero_iff]
    intro z hz
    cases held : (q.afterLoss zones).granted.getLsbD z.val with
    | false => rfl
    | true =>
      obtain ⟨old, kept⟩ := afterLoss_granted held
      rw [granted, BitVec.getLsbD_or, kept, Bool.or_false] at hz
      exact absurd old (by rw [and_eq_zero_iff.mp hq z hz]; decide)
  have comm {a b : ZoneSet} (h : a &&& b = 0) : b &&& a = 0 := by rw [BitVec.and_comm]; exact h
  refine pagesOk_map (fun q => if q.id = p.id then p' else q.afterLoss zones) queue arrival ?_ ok ?_ ?_ ?_
  · intro q hq
    by_cases id : q.id = p.id
    · rw [at_p hq id, if_pos rfl]; exact key
    · rw [if_neg id]; exact (afterLoss_shrinks q zones).key
  · intro q hq r hr ne apart
    by_cases idq : q.id = p.id
    · have idr : r.id ≠ p.id := fun same => ne (idq.trans same.symm)
      rw [if_pos idq, if_neg idr]
      rw [at_p hq idq] at apart
      exact loses r apart
    · rw [if_neg idq]
      by_cases idr : r.id = p.id
      · rw [if_pos idr]
        rw [at_p hr idr] at apart
        exact comm (loses q (comm apart))
      · rw [if_neg idr]
        exact (afterLoss_shrinks q zones).apart (afterLoss_shrinks r zones) apart
  · intro q hq r hr ne apart
    by_cases idq : q.id = p.id
    · have idr : r.id ≠ p.id := fun same => ne (idq.trans same.symm)
      rw [if_pos idq, if_neg idr]
      exact player r hr idr
    · rw [if_neg idq]
      by_cases idr : r.id = p.id
      · rw [if_pos idr]
        rcases player q hq idq with free | other
        · cases held : (q.afterLoss zones).player with
          | none => exact .inl rfl
          | some x => exact .inr (by rw [free]; simp)
        · exact .inr other.symm
      · rw [if_neg idr]
        exact (afterLoss_shrinks q zones).players (afterLoss_shrinks r zones) apart
  · intro q hq rightly
    by_cases id : q.id = p.id
    · rw [at_p hq id] at rightly
      rw [if_pos id]
      refine ⟨?_, fun idle => absurd playing idle⟩
      rw [and_not_eq_zero_iff, granted, sameZones]
      intro z hz
      rw [BitVec.getLsbD_or, Bool.or_eq_true] at hz
      exact hz.elim (and_not_eq_zero_iff.mp rightly.1 z) (and_not_eq_zero_iff.mp own z)
    · rw [if_neg id]; exact (afterLoss_shrinks q zones).holdsRightly rightly

/-! ### Zones held -/

/-- A zone may be held at a priority: it is not covered, and not locked by a threshold that no TAKE has still to hand
over. -/
def State.holdable (s : State) (z : Fin 24) (priority : Nat) : Prop :=
  s.covered z = false ∧
    (s.scene.handed.getLsbD z.val = false → ∀ h, (s.zoneFields z).mode = .showLocked h → h ≤ priority)

/-- What a zone may be held by depends on coverage, the modes in force and the zones handed over. -/
theorem holdable_of_frame {s t : State} (h : PagesFrame s t) (z : Fin 24) (priority : Nat) :
    t.holdable z priority ↔ s.holdable z priority := by
  simp only [State.holdable, State.covered, State.zoneFields, State.activeBank, h.alarm, h.mix, h.scene]

theorem zonesFree_of_frame {s t : State} (frame : PagesFrame s t)
    (h : s.zonesFree → ∀ p ∈ t.pages.queue, ∀ z : Fin 24, p.granted.getLsbD z.val = true → s.holdable z p.priority)
    (free : s.zonesFree) : t.zonesFree :=
  fun p hp z hz => (holdable_of_frame frame z p.priority).mpr (h free p hp z hz)

/-- A record that only shrinks holds only zones that its old content could hold. -/
theorem zonesFree_shrinks {s t : State} (frame : PagesFrame s t) (g : Page → Page)
    (queue : t.pages.queue = s.pages.queue.map g) (h : ∀ p ∈ s.pages.queue, p.Shrinks (g p)) (free : s.zonesFree) :
    t.zonesFree := by
  refine zonesFree_of_frame frame (fun free q hq z hz => ?_) free
  rw [queue] at hq
  obtain ⟨p, hp, rfl⟩ := List.mem_map.mp hq
  rw [(h p hp).key.2.1]
  exact free p hp z ((h p hp).granted z hz)

theorem lockedAgainst_eq_false_iff (s : State) (z : Fin 24) (priority : Nat) :
    s.lockedAgainst z priority = false ↔ ∀ h, (s.zoneFields z).mode = .showLocked h → h ≤ priority := by
  unfold State.lockedAgainst
  split
  · rename_i threshold mode
    simp only [decide_eq_false_iff_not, Nat.not_lt, mode]
    exact ⟨fun le h eq => (ZoneMode.showLocked.inj eq) ▸ le, fun all => all threshold rfl⟩
  · rename_i other
    exact ⟨fun _ h eq => absurd eq (other h), fun _ => rfl⟩

theorem grantableZones_getLsbD (s : State) (p : Page) (z : Fin 24) :
    (s.grantableZones p).getLsbD z.val = true ↔ p.zones.getLsbD z.val = true ∧ s.grantable p z = true := by
  rw [State.grantableZones, zonesWhere_getLsbD, Bool.and_eq_true]
  rfl

theorem grantable_holdable {s : State} {p : Page} {z : Fin 24} (h : s.grantable p z = true) :
    s.holdable z p.priority := by
  simp only [State.grantable, Bool.and_eq_true, Bool.not_eq_true'] at h
  obtain ⟨⟨uncovered, unlocked⟩, -⟩ := h
  exact ⟨uncovered, fun _ => (lockedAgainst_eq_false_iff s z p.priority).mp unlocked⟩

theorem revokedZones_getLsbD (s : State) (p : Page) (z : Fin 24) :
    (s.revokedZones p).getLsbD z.val =
      (p.granted.getLsbD z.val && (s.covered z || s.lockedAgainst z p.priority)) := by
  rw [State.revokedZones, zonesWhere_getLsbD]
  rfl

/-- The zones a record takes may be held by it. -/
theorem Takes.zonesFree {s t : State} {p p' : Page} {zones : ZoneSet} (h : Takes s t p p' zones) (frame : PagesFrame s t)
    (holdable : ∀ z : Fin 24, zones.getLsbD z.val = true → s.holdable z p.priority) (free : s.zonesFree) :
    t.zonesFree := by
  refine zonesFree_of_frame frame (fun free q hq z hz => ?_) free
  rw [h.queue] at hq
  obtain ⟨r, hr, rfl⟩ := List.mem_map.mp hq
  by_cases id : r.id = p.id
  · rw [if_pos id] at hz ⊢
    rw [h.granted, BitVec.getLsbD_or, Bool.or_eq_true] at hz
    rw [h.key.2.1]
    exact hz.elim (free p h.mem z) (holdable z)
  · rw [if_neg id] at hz ⊢
    rw [(afterLoss_shrinks r zones).key.2.1]
    exact free r hr z ((afterLoss_shrinks r zones).granted z hz)

/-! ### Events of the scheduler -/

/-- Only events have been posted in the control interface. -/
def ControlKept (s t : State) : Prop := s.controlOk → t.controlOk

theorem ControlKept.of_eq {s t : State} (h : t.ctl = s.ctl) : ControlKept s t := by
  unfold ControlKept State.controlOk
  rw [h]
  exact id

theorem updatePage_ctl (s : State) (id : PageId) (f : Page → Page) : (s.updatePage id f).ctl = s.ctl := rfl

theorem freePage_ctl (s : State) (id : PageId) : (s.freePage id).ctl = s.ctl := by
  unfold State.freePage
  split
  · split <;> rfl
  · rfl

theorem startRepeat_ctl (s : State) (id : PageId) : (s.startRepeat id).ctl = s.ctl := by
  unfold State.startRepeat
  split
  · split
    · split <;> rfl
    · rfl
  · rfl

theorem suspendPage_control (s : State) (id : PageId) : ControlKept s (s.suspendPage id) := by
  have silent : ControlKept s ((s.freePage id).updatePage id (fun p =>
      { p with state := .suspended, granted := 0, joining := 0, restartIn := none, suspPosted := true })) :=
    .of_eq (freePage_ctl s id)
  unfold State.suspendPage
  simp only
  split
  · exact silent
  · exact (post_keeps _ _ _ _).control ∘ silent

theorem losePage_control (lost : ZoneSet) (id : PageId) (r : State × Bool) : ControlKept r.1 (losePage lost id r).1 := by
  unfold losePage
  split
  · split
    · exact suspendPage_control r.1 id
    · split
      · exact fun h => h
      · exact .of_eq rfl
  · exact fun h => h

/-- A fold that carries a flag beside the state keeps what each of its steps keeps. -/
theorem foldl_pair_keeps {α : Type} {R : State → State → Prop} (refl : ∀ s, R s s)
    (trans : ∀ {s t u}, R s t → R t u → R s u) {f : State × Bool → α → State × Bool}
    (h : ∀ (r : State × Bool) x, R r.1 (f r x).1) (l : List α) (r : State × Bool) : R r.1 (l.foldl f r).1 := by
  induction l generalizing r with
  | nil => exact refl r.1
  | cons x rest ih => exact trans (h r x) (ih _)

theorem foldl_control {α : Type} {f : State × Bool → α → State × Bool} (h : ∀ (r : State × Bool) x, ControlKept r.1 (f r x).1)
    (l : List α) (r : State × Bool) : ControlKept r.1 (l.foldl f r).1 :=
  foldl_pair_keeps (R := ControlKept) (fun _ h => h) (fun h k => k ∘ h) h l r

theorem takeZones_control (s : State) (id : PageId) (zones : ZoneSet) : ControlKept s (s.takeZones id zones).1 :=
  foldl_control (fun r q => losePage_control zones q r) _ (s, false)

theorem revoke_control (s : State) : ControlKept s s.revoke := by
  refine foldl_control (fun r id => ?_) _ (s, false)
  split
  · exact losePage_control _ id r
  · exact fun h => h

theorem grantPage_control (s : State) (p : Page) (zones : ZoneSet) : ControlKept s (s.grantPage p zones).1 := by
  have taken := takeZones_control s p.id zones
  have started (t : State) (h : t.ctl = (s.takeZones p.id zones).1.ctl) : ControlKept s (t.startRepeat p.id) :=
    ControlKept.of_eq ((startRepeat_ctl t p.id).trans h) ∘ taken
  have quiet := started ((if p.needsPlayer then (s.takeZones p.id zones).1.updatePage p.id
      (fun q => { q with player := (s.takeZones p.id zones).1.freePlayer }) else (s.takeZones p.id zones).1).updatePage p.id
      (fun q => { q with state := .playing, started := true })) (by split <;> rfl)
  unfold State.grantPage
  simp only
  split
  · exact quiet
  · exact (post_keeps _ _ _ _).control ∘ quiet

theorem examinePage_control (id : PageId) (r : State × Bool) : ControlKept r.1 (examinePage id r).1 := by
  unfold examinePage
  split
  · exact fun h => h
  · rename_i p _
    simp only
    split
    · split_ifs
      · exact fun h => h
      · exact .of_eq rfl
      · exact takeZones_control r.1 id (r.1.grantableZones p)
    · split_ifs
      · exact fun h => h
      · exact grantPage_control r.1 p (r.1.grantableZones p)
      · exact fun h => h
      · exact grantPage_control r.1 p (r.1.grantableZones p)
      · exact fun h => h

theorem removePage_control (s : State) (id : PageId) (cause : BitVec 4) : ControlKept s (s.removePage id cause) :=
  (post_keeps _ _ _ _).control ∘ ControlKept.of_eq (freePage_ctl s id)

/-! ### One operation after another -/

/-- An operation of the page scheduler keeps the other blocks' invariants by its frame. -/
theorem PagesFrame.keeps {s t : State} (frame : PagesFrame s t) (control : ControlKept s t)
    (pages : s.pagesOk → t.pagesOk) (zones : s.pagesOk → s.zonesFree → t.zonesFree) : Keeps s t where
  memory := by rw [State.memoryOk, State.memoryOk, frame.memory]; exact fun h => h
  control := control
  trackers := by rw [State.trackersOk, State.trackersOk, frame.trackers]; exact fun h => h
  inserts := by rw [State.insertsOk, State.insertsOk, frame.ring]; exact fun h => h
  alarm := by rw [State.alarmOk, State.alarmOk, frame.alarm]; exact fun h => h
  pages := pages
  zones := zones
  calls := by rw [State.callsOk, State.callsOk, frame.icom]; exact fun h => h
  apart := fun _ => by rw [State.callsApart, State.callsApart, frame.icom]; exact fun h => h
  hold := fun _ _ => by
    unfold State.holdOk State.heldNow State.underGeneral State.winner
    rw [frame.icom, frame.alarm]
    exact fun h => h
  settings := frame.settings
  incoming := frame.incoming
  receiver := by rw [frame.ring]

/-- A change in place in which every record only shrinks. -/
theorem shrinks_keeps {s t : State} (frame : PagesFrame s t) (control : ControlKept s t) (g : Page → Page)
    (queue : t.pages.queue = s.pages.queue.map g) (arrival : t.pages.nextArrival = s.pages.nextArrival)
    (h : s.pagesOk → ∀ p ∈ s.pages.queue, p.Shrinks (g p)) : Keeps s t :=
  frame.keeps control (fun ok => pagesOk_shrinks g queue arrival (h ok) ok)
    fun ok => zonesFree_shrinks frame g queue (h ok)

theorem setPages_frame (s : State) (x : Pages) : PagesFrame s (s.setPages x) := by
  constructor <;> rfl

/-- Records changed in place, nothing taken. -/
theorem setPages_map_keeps (s : State) (g : Page → Page) (x : Pages) (queue : x.queue = s.pages.queue.map g)
    (arrival : x.nextArrival = s.pages.nextArrival) (h : ∀ p ∈ s.pages.queue, p.Shrinks (g p)) : Keeps s (s.setPages x) :=
  shrinks_keeps (setPages_frame s x) (.of_eq rfl) g queue arrival fun _ => h

theorem updatePage_keeps (s : State) (id : PageId) (f : Page → Page)
    (h : ∀ p ∈ s.pages.queue, p.id = id → p.Shrinks (f p)) : Keeps s (s.updatePage id f) :=
  setPages_map_keeps s (fun p => if p.id = id then f p else p) _ rfl rfl fun p hp => by
    by_cases own : p.id = id
    · rw [if_pos own]; exact h p hp own
    · rw [if_neg own]; exact .refl p

theorem duePasses_keeps (s : State) (n : Nat) : Keeps s (s.duePasses n) := { Keeps.refl s with }

theorem duePass_keeps (s : State) : Keeps s s.duePass := duePasses_keeps s 1

theorem setPlayer_keeps (s : State) (x : Fin 4) (y : Player) : Keeps s (s.setPlayer x y) := setClips_keeps rfl

theorem dropBurst_keeps (s : State) (x : Fin 4) : Keeps s (s.dropBurst x) := setClips_keeps rfl

theorem releasePlayer_keeps (s : State) (x : Fin 4) : Keeps s (s.releasePlayer x) :=
  (dropBurst_keeps s x).trans (setPlayer_keeps _ _ _)

theorem handSequence_keeps (s : State) (x : Fin 4) (l : List (Fin 256)) (c : Bool) : Keeps s (s.handSequence x l c) :=
  (dropBurst_keeps s x).trans (setPlayer_keeps _ _ _)

theorem freePage_keeps (s : State) (id : PageId) : Keeps s (s.freePage id) := by
  unfold State.freePage
  split
  · split
    · refine (releasePlayer_keeps s _).trans (updatePage_keeps _ id _ fun p _ _ => ?_)
      exact ⟨⟨rfl, rfl, rfl⟩, rfl, fun _ hz => hz, .inl rfl, fun rightly idle => ⟨(rightly idle).1, (rightly idle).2.1, rfl⟩⟩
    · exact .refl s
  · exact .refl s

theorem startRepeat_keeps (s : State) (id : PageId) : Keeps s (s.startRepeat id) := by
  have restart (f : Page → Page) (h : ∀ p, (f p).id = p.id ∧ (f p).priority = p.priority ∧ (f p).arrival = p.arrival ∧
      (f p).zones = p.zones ∧ (f p).granted = p.granted ∧ (f p).player = p.player ∧ (f p).state = p.state ∧
      (f p).joining = p.joining) : Keeps s (s.updatePage id f) :=
    updatePage_keeps s id f fun p _ _ => by
      obtain ⟨i, prio, arr, zs, granted, player, state, joining⟩ := h p
      exact .of_same ⟨i, prio, arr⟩ zs granted player state fun _ => joining
  unfold State.startRepeat
  split
  · have restarted := restart (fun p => { p with
        restartIn := none, phase := if p.sequence.2 then .chime else .audio
        sourceLoss := if p.clip then p.sourceLoss else 0 }) fun _ => ⟨rfl, rfl, rfl, rfl, rfl, rfl, rfl, rfl⟩
    split
    · split
      · exact restarted.trans (handSequence_keeps _ _ _ _)
      · exact restarted
    · exact restarted
  · exact .refl s

/-- Revocation leaves every record with zones it may hold. -/
theorem revoke_zonesFree {s : State} (ok : s.pagesOk) : s.revoke.zonesFree := by
  intro q hq z hz
  refine (holdable_of_frame (revoke_pagesOnly s).toPagesFrame z q.priority).mpr ?_
  rw [revoke_eq ok.idsApart, afterLosses_pages] at hq
  obtain ⟨p, -, rfl⟩ := List.mem_map.mp hq
  obtain ⟨held, kept⟩ := afterLoss_granted hz
  rw [revokedZones_getLsbD, held, Bool.true_and, Bool.or_eq_false_iff] at kept
  rw [(afterLoss_shrinks p _).key.2.1]
  exact ⟨kept.1, fun _ => (lockedAgainst_eq_false_iff s z p.priority).mp kept.2⟩

theorem revoke_keeps (s : State) : Keeps s s.revoke :=
  (revoke_pagesOnly s).toPagesFrame.keeps (revoke_control s)
    (fun ok => pagesOk_shrinks (fun q => q.afterLoss (s.revokedZones q))
      (by rw [revoke_eq ok.idsApart, afterLosses_pages]) (revoke_pagesOnly s).arrival
      (fun p _ => afterLoss_shrinks p _) ok)
    fun ok _ => revoke_zonesFree ok

theorem handScheduler_keeps (s : State) : Keeps s s.handScheduler := (revoke_keeps s).trans (duePasses_keeps _ _)

theorem handScheduler_zonesFree {s : State} (ok : s.pagesOk) : s.handScheduler.zonesFree :=
  (duePasses_keeps _ _).zones ((revoke_keeps s).pages ok) (revoke_zonesFree ok)

/-! ### Walks and passes -/

theorem mem_grantable {s : State} {p : Page} {zones : ZoneSet}
    (h : ∀ z : Fin 24, zones.getLsbD z.val = true → (s.grantableZones p).getLsbD z.val = true) :
    zones &&& ~~~p.zones = 0 ∧ ∀ z : Fin 24, zones.getLsbD z.val = true → s.holdable z p.priority :=
  ⟨and_not_eq_zero_iff.mpr fun z hz => ((grantableZones_getLsbD s p z).mp (h z hz)).1,
    fun z hz => grantable_holdable ((grantableZones_getLsbD s p z).mp (h z hz)).2⟩

/-- The queue after one record has taken zones and been changed itself. -/
theorem afterTaking_withPage_queue {s : State} (h : s.pageIdsApart) {p : Page} (hp : p ∈ s.pages.queue) (zones : ZoneSet)
    (f : Page → Page) :
    ((s.afterTaking p zones).withPage p.id f).pages = { s.pages with
      queue := s.pages.queue.map
        (fun q => if q.id = p.id then f { p with granted := p.granted ||| zones } else q.afterLoss zones) } := by
  simp only [State.withPage, afterTaking_pages, List.map_map]
  congr 1
  apply List.map_congr_left
  intro q hq
  by_cases id : q.id = p.id
  · rw [h.eq hq hp id]
    simp only [Function.comp_apply, if_true]
  · simp only [Function.comp_apply, if_neg id, afterLoss_id]

/-- No two records have one player. -/
theorem State.pagesOk.players {s : State} (ok : s.pagesOk) {p q : Page} (hp : p ∈ s.pages.queue)
    (hq : q ∈ s.pages.queue) (other : p.id ≠ q.id) : p.player = none ∨ p.player ≠ q.player := by
  obtain ⟨-, -, -, -, -, players, -⟩ := ok
  have symm : Std.Symm (fun a b : Page => a.player = none ∨ a.player ≠ b.player) := ⟨fun a b h => by
    cases hb : b.player with
    | none => exact .inl rfl
    | some x =>
      refine .inr fun same => ?_
      rw [hb, ← same] at h
      exact h.elim (fun free => by cases free) fun ne => ne rfl⟩
  exact players.forall hp hq fun same => other (congrArg Page.id same)

/-- No two records hold one zone. -/
theorem State.pagesOk.holders {s : State} (ok : s.pagesOk) {p q : Page} (hp : p ∈ s.pages.queue)
    (hq : q ∈ s.pages.queue) (other : p.id ≠ q.id) : p.granted &&& q.granted = 0 := by
  obtain ⟨-, -, -, -, zones, -, -⟩ := ok
  have symm : Std.Symm (fun a b : Page => a.granted &&& b.granted = 0) :=
    ⟨fun a b h => (BitVec.and_comm b.granted a.granted).trans h⟩
  exact zones.forall hp hq fun same => other (congrArg Page.id same)

theorem State.pagesOk.single {s : State} (ok : s.pagesOk) {p : Page} (hp : p ∈ s.pages.queue) : p.holdsRightly := by
  obtain ⟨-, -, -, -, -, -, single⟩ := ok
  exact single p hp

/-- A PLAYING record takes zones. -/
theorem takes_of_playing {s : State} (ok : s.pagesOk) {p : Page} (hp : p ∈ s.pages.queue) (playing : p.state = .playing)
    (zones : ZoneSet) (own : zones &&& ~~~p.zones = 0) :
    Takes s ((s.afterTaking p zones).withPage p.id (fun q => { q with joining := 0 })) p
      { p with granted := p.granted ||| zones, joining := 0 } zones where
  mem := hp
  queue := by rw [afterTaking_withPage_queue ok.idsApart hp]
  arrival := by rw [afterTaking_withPage_queue ok.idsApart hp]
  key := ⟨rfl, rfl, rfl⟩
  sameZones := rfl
  playing := playing
  own := own
  granted := rfl
  player := fun q hq other =>
    (Page.Shrinks.refl p).players (afterLoss_shrinks q zones) (ok.players hp hq (Ne.symm other))

/-- The player of a grant belongs to no other record. -/
theorem grantPlayer_apart {s : State} {p q : Page} (idle : p.player = none) (hq : q ∈ s.pages.queue) :
    s.grantPlayer p = none ∨ s.grantPlayer p ≠ q.player := by
  unfold State.grantPlayer
  split
  · cases found : s.freePlayer with
    | none => exact .inl rfl
    | some x =>
      right
      have free := List.find?_some found
      simp only [Bool.not_eq_true', List.any_eq_false, beq_iff_eq] at free
      exact fun same => free q hq same.symm
  · exact .inl idle

/-- A record that is not PLAYING is granted zones and a player. -/
theorem takes_of_idle {s : State} (ok : s.pagesOk) {p : Page} (hp : p ∈ s.pages.queue) (idle : p.state ≠ .playing)
    (zones : ZoneSet) (own : zones &&& ~~~p.zones = 0) :
    Takes s (s.granted p zones) p (p.grantedWith zones ((s.afterTaking p zones).grantPlayer p)) zones where
  mem := hp
  queue := by rw [granted_pages]
  arrival := by rw [granted_pages]
  key := ⟨rfl, rfl, rfl⟩
  sameZones := rfl
  playing := rfl
  own := own
  granted := rfl
  player := fun q hq other => by
    obtain ⟨-, none⟩ := ok.single hp
    refine grantPlayer_apart (s := s.afterTaking p zones) (none idle).2.2 ?_
    rw [afterTaking_pages]
    exact List.mem_map.mpr ⟨q, hq, if_neg other⟩

/-- What a walk does with one record keeps the order of the queue and the freedom of the zones. -/
theorem examinePage_pages {s : State} (ok : s.pagesOk) {p : Page} (hp : p ∈ s.pages.queue) (b : Bool) :
    (examinePage p.id (s, b)).1.pagesOk ∧ (s.zonesFree → (examinePage p.id (s, b)).1.zonesFree) := by
  have ids := ok.idsApart
  have frame := (examinePage_pagesOnly p.id (s, b)).toPagesFrame
  obtain ⟨own, holdable⟩ := mem_grantable (s := s) (p := p) (zones := s.grantableZones p) fun _ h => h
  by_cases playing : p.state = .playing
  · rw [examinePage_playing ids hp b playing] at frame ⊢
    split_ifs at frame ⊢
    · exact ⟨ok, id⟩
    · have joins := updatePage_keeps s p.id (fun q => { q with joining := s.grantableZones p }) fun q hq id =>
        .of_same ⟨rfl, rfl, rfl⟩ rfl rfl rfl rfl fun idle => absurd (ids.eq hq hp id ▸ playing) idle
      exact ⟨joins.pages ok, joins.zones ok⟩
    · have takes := takes_of_playing ok hp playing _ own
      exact ⟨takes.pagesOk ok, takes.zonesFree frame holdable⟩
  · rw [examinePage_idle ids hp b playing] at frame ⊢
    have takes := takes_of_idle ok hp playing _ own
    have granted : (s.grantPage p (s.grantableZones p)).1.pagesOk ∧
        (s.zonesFree → (s.grantPage p (s.grantableZones p)).1.zonesFree) := by
      have frame := (grantPage_pagesOnly s p (s.grantableZones p)).toPagesFrame
      rw [grantPage_eq ids hp] at frame ⊢
      by_cases started : p.started = true
      · simp only [if_pos started] at frame ⊢
        exact ⟨takes.pagesOk ok, takes.zonesFree frame holdable⟩
      · simp only [if_neg started] at frame ⊢
        have posted : Takes s ((s.granted p (s.grantableZones p)).withEvent .pageStarted p.id.toNat 0) p _ _ :=
          { takes with }
        exact ⟨posted.pagesOk ok, posted.zonesFree frame holdable⟩
    split_ifs
    · exact ⟨ok, id⟩
    · exact granted
    · exact ⟨ok, id⟩
    · exact granted
    · exact ⟨ok, id⟩

theorem examinePage_keeps (id : PageId) (r : State × Bool) : Keeps r.1 (examinePage id r).1 := by
  obtain ⟨s, b⟩ := r
  cases found : s.page id with
  | none =>
    have unchanged : examinePage id (s, b) = (s, b) := by simp only [examinePage, found]
    rw [unchanged]
    exact .refl s
  | some p =>
    obtain ⟨hp, rfl⟩ := page_some found
    exact (examinePage_pagesOnly p.id (s, b)).toPagesFrame.keeps (examinePage_control p.id (s, b))
      (fun ok => (examinePage_pages ok hp b).1) fun ok => (examinePage_pages ok hp b).2

theorem walk_keeps (s : State) : Keeps s (walk s).1 :=
  foldl_pair_keeps Keeps.refl Keeps.trans (fun r id => examinePage_keeps id r) _ (s, false)

theorem walks_keeps (n : Nat) (s : State) : Keeps s (walks n s) := by
  induction n generalizing s with
  | zero => exact .refl s
  | succ n ih =>
    unfold walks
    simp only
    split
    · exact (walk_keeps s).trans (ih _)
    · exact walk_keeps s

theorem grantPass_keeps (s : State) : Keeps s s.grantPass := walks_keeps _ s

theorem passesRun_keeps (n : Nat) (s : State) : Keeps s (passesRun n s) := by
  induction n generalizing s with
  | zero => exact .refl s
  | succ n ih => exact (grantPass_keeps s).trans (ih _)

theorem clearPasses_keeps (s : State) : Keeps s (s.setPages { s.pages with passes := 0 }) := { Keeps.refl s with }

theorem runPasses_keeps (s : State) : Keeps s s.runPasses := (clearPasses_keeps s).trans (passesRun_keeps _ _)

/-! ### Ends and additions -/

/-- Records leave the queue. -/
theorem filterPages_keeps (s : State) (pick : Page → Bool) :
    Keeps s (s.setPages { s.pages with queue := s.pages.queue.filter pick }) where
  __ := Keeps.refl s
  pages := by
    rintro ⟨length, ids, order, arrivals, zones, players, single⟩
    have sub : s.pages.queue.filter pick |>.Sublist s.pages.queue := List.filter_sublist
    refine ⟨(List.length_filter_le _ _).trans length, ids.sublist (sub.map _), order.sublist sub, ?_,
      zones.sublist sub, players.sublist sub, ?_⟩
    · exact fun p hp => arrivals p (List.mem_of_mem_filter hp)
    · exact fun p hp => single p (List.mem_of_mem_filter hp)
  zones := fun _ free p hp => free p (List.mem_of_mem_filter hp)

theorem removePage_keeps (s : State) (id : PageId) (cause : BitVec 4) : Keeps s (s.removePage id cause) :=
  ((freePage_keeps s id).trans (filterPages_keeps _ _)).trans (post_keeps _ _ _ _)

theorem endPage_keeps (s : State) (id : PageId) (cause : BitVec 4) : Keeps s (s.endPage id cause) :=
  (removePage_keeps s id cause).trans (duePass_keeps _)

theorem insertPage_mem (p q : Page) (l : List Page) : q ∈ insertPage p l ↔ q = p ∨ q ∈ l := by
  obtain ⟨before, after, rfl, eq, -, -⟩ := insertPage_split p l
  rw [eq]
  simp only [List.mem_append, List.mem_cons]
  tauto

theorem insertPage_perm (p : Page) (l : List Page) : (insertPage p l).Perm (p :: l) := by
  obtain ⟨before, after, rfl, eq, -, -⟩ := insertPage_split p l
  rw [eq]
  exact List.perm_middle

/-- The queue's order with a record of the latest arrival. -/
theorem insertPage_order (p : Page) (l : List Page)
    (h : l.Pairwise (fun a b => b.priority < a.priority ∨ (b.priority = a.priority ∧ a.arrival < b.arrival)))
    (late : ∀ q ∈ l, q.arrival < p.arrival) :
    (insertPage p l).Pairwise
      (fun a b => b.priority < a.priority ∨ (b.priority = a.priority ∧ a.arrival < b.arrival)) := by
  induction l with
  | nil => exact List.pairwise_singleton _ _
  | cons q rest ih =>
    obtain ⟨first, order⟩ := List.pairwise_cons.mp h
    unfold insertPage
    split
    · rename_i low
      refine List.pairwise_cons.mpr ⟨fun r hr => ?_, ih order fun r hr => late r (List.mem_cons_of_mem _ hr)⟩
      rcases (insertPage_mem p r rest).mp hr with rfl | old
      · have := late q List.mem_cons_self
        omega
      · exact first r old
    · rename_i high
      refine List.pairwise_cons.mpr ⟨fun r hr => ?_, h⟩
      rcases List.mem_cons.mp hr with rfl | old
      · omega
      · have := first r old
        omega

/-- A new record joins a queue that has room for it and does not know its id. -/
theorem enqueue_keeps {s : State} {p : Page} (room : s.pages.queue.length < 32) (fresh : s.page p.id = none)
    (granted : p.granted = 0) (joining : p.joining = 0) (player : p.player = none) : Keeps s (s.enqueue p) where
  __ := Keeps.refl s
  pages := by
    rintro ⟨length, ids, order, arrivals, zones, players, single⟩
    let q : Page := { p with arrival := s.pages.nextArrival }
    have perm := insertPage_perm q s.pages.queue
    have symmZones : ∀ {a b : Page}, a.granted &&& b.granted = 0 → b.granted &&& a.granted = 0 :=
      fun h => (BitVec.and_comm _ _).trans h
    have symmPlayers : ∀ {a b : Page}, a.player = none ∨ a.player ≠ b.player → b.player = none ∨ b.player ≠ a.player := by
      intro a b h
      cases hb : b.player with
      | none => exact .inl rfl
      | some x =>
        refine .inr fun same => ?_
        rw [hb, ← same] at h
        exact h.elim (fun free => by cases free) fun ne => ne rfl
    refine ⟨?_, ?_, ?_, ?_, ?_, ?_, ?_⟩
    · have := perm.length_eq
      change (insertPage q s.pages.queue).length ≤ 32
      rw [this, List.length_cons]
      omega
    · change ((insertPage q s.pages.queue).map (·.id)).Nodup
      rw [(perm.map _).nodup_iff, List.map_cons, List.nodup_cons]
      refine ⟨fun mem => ?_, ids⟩
      obtain ⟨r, hr, id⟩ := List.mem_map.mp mem
      exact page_none_iff.mp fresh r hr id
    · exact insertPage_order q _ order arrivals
    · intro r hr
      rcases (insertPage_mem q r _).mp hr with rfl | old
      · exact Nat.lt_succ_self _
      · exact Nat.lt_succ_of_lt (arrivals r old)
    · refine (perm.symm.pairwise (R := fun a b : Page => a.granted &&& b.granted = 0) ?_ fun h => symmZones h)
      exact List.pairwise_cons.mpr ⟨fun r _ => by rw [show q.granted = 0 from granted]; exact BitVec.zero_and, zones⟩
    · refine (perm.symm.pairwise (R := fun a b : Page => a.player = none ∨ a.player ≠ b.player) ?_ fun h => symmPlayers h)
      exact List.pairwise_cons.mpr ⟨fun r _ => .inl player, players⟩
    · intro r hr
      rcases (insertPage_mem q r _).mp hr with rfl | old
      · exact ⟨by rw [show q.granted = 0 from granted]; exact BitVec.zero_and, fun _ => ⟨granted, joining, player⟩⟩
      · exact single r old
  zones := fun _ free r hr z hz => by
    rcases (insertPage_mem _ r _).mp hr with rfl | old
    · exact absurd hz (by rw [show p.granted = 0 from granted]; simp)
    · exact free r old z hz

/-! ### Timers and boundaries -/

theorem pageExpired_keeps (id : PageId) (s : State) : Keeps s (pageExpired id s) := by
  unfold pageExpired
  split
  · exact .ite (fun _ => endPage_keeps _ _ _) fun _ => .refl s
  · exact .refl s

theorem pageTimedOut_keeps (id : PageId) (s : State) : Keeps s (pageTimedOut id s) := by
  unfold pageTimedOut
  split
  · exact .ite (fun _ => endPage_keeps _ _ _) fun _ => .refl s
  · exact .refl s

theorem pageSourceLost_keeps (id : PageId) (s : State) : Keeps s (pageSourceLost id s) := by
  unfold pageSourceLost
  split
  · exact .ite (fun _ => endPage_keeps _ _ _) fun _ => .refl s
  · exact .refl s

theorem expirePages_keeps (s : State) : Keeps s s.expirePages := .foldl (fun s id => pageExpired_keeps id s) _ s

theorem settleRounds_keeps (n : Nat) (s : State) : Keeps s (settleRounds n s) := by
  induction n generalizing s with
  | zero => exact .refl s
  | succ n ih => exact .ite (fun _ => .refl s) fun _ => ((runPasses_keeps s).trans (expirePages_keeps _)).trans (ih _)

theorem settle_keeps (s : State) : Keeps s s.settle := settleRounds_keeps _ s

theorem tick_shrinks (tap : Fin 64 → Int) (p : Page) : p.Shrinks (p.tick tap) :=
  .of_same ⟨rfl, rfl, rfl⟩ rfl rfl rfl rfl fun _ => rfl

theorem pageTick_keeps (s : State) : Keeps s s.pageTick :=
  setPages_map_keeps s _ _ rfl rfl fun p _ => tick_shrinks s.tap p

theorem chimeEnd_keeps (x : Fin 4) (s : State) : Keeps s (chimeEnd x s) := by
  refine .ite (fun _ => ?_) fun _ => .refl s
  have taken := setPlayer_keeps s x { s.clips.players[x] with chimeEnd := .taken }
  simp only
  split
  · refine taken.trans (.ite (fun _ => updatePage_keeps _ _ _ fun _ _ _ => ?_) fun _ => .refl _)
    exact .of_same ⟨rfl, rfl, rfl⟩ rfl rfl rfl rfl fun _ => rfl
  · exact taken

theorem endRepeat_keeps (s : State) (p : Page) : Keeps s (s.endRepeat p) :=
  .ite (fun _ => endPage_keeps _ _ _) fun _ => updatePage_keeps _ _ _ fun _ _ _ =>
    .of_same ⟨rfl, rfl, rfl⟩ rfl rfl rfl rfl fun _ => rfl

theorem endLiveChime_keeps (s : State) (p : Page) : Keeps s (s.endLiveChime p) := by
  have audio := updatePage_keeps (s.freePage p.id) p.id (fun q => { q with phase := .audio, sourceLoss := 0 })
    fun _ _ _ => .of_same ⟨rfl, rfl, rfl⟩ rfl rfl rfl rfl fun _ => rfl
  exact ((freePage_keeps s p.id).trans audio).trans (duePass_keeps _)

theorem sequenceEnd_keeps (x : Fin 4) (s : State) : Keeps s (sequenceEnd x s) := by
  refine .ite (fun _ => ?_) fun _ => .refl s
  have taken := setPlayer_keeps s x { s.clips.players[x] with seqEnd := .taken }
  simp only
  split
  · exact taken.trans (.ite (fun _ => endRepeat_keeps _ _) fun _ => endLiveChime_keeps _ _)
  · exact taken

/-- The zones a record takes when its gap ends. -/
theorem gapTaking_keeps {s : State} {p : Page} (hp : p ∈ s.pages.queue) (playing : p.state = .playing) (zones : ZoneSet)
    (sub : ∀ z : Fin 24, zones.getLsbD z.val = true → (s.grantableZones p).getLsbD z.val = true) :
    Keeps s ((s.takeZones p.id zones).1.updatePage p.id (fun q => { q with joining := 0 })) := by
  have frame : PagesFrame s ((s.takeZones p.id zones).1.updatePage p.id (fun q => { q with joining := 0 })) :=
    ((takeZones_pagesOnly s p.id zones).trans (updatePage_pagesOnly _ p.id
      (fun q => { q with joining := 0 }) (fun _ => rfl) fun _ => rfl)).toPagesFrame
  obtain ⟨own, holdable⟩ := mem_grantable sub
  have takes (ok : s.pagesOk) :
      Takes s ((s.takeZones p.id zones).1.updatePage p.id (fun q => { q with joining := 0 })) p
        { p with granted := p.granted ||| zones, joining := 0 } zones := by
    rw [takeZones_eq ok.idsApart]
    exact takes_of_playing ok hp playing zones own
  exact frame.keeps (takeZones_control s p.id zones) (fun ok => (takes ok).pagesOk ok)
    fun ok => (takes ok).zonesFree frame holdable

theorem updatePage_page {s : State} {id : PageId} {p : Page} (h : s.page id = some p) (f : Page → Page)
    (hf : ∀ q, (f q).id = q.id) : (s.updatePage id f).page id = some (f p) := by
  have test : (fun q : Page => q.id == id) ∘ (fun q => if q.id = id then f q else q) = fun q : Page => q.id == id := by
    funext q
    by_cases own : q.id = id
    · simp only [Function.comp_apply, if_pos own, hf]
    · simp only [Function.comp_apply, if_neg own]
  have found : (s.updatePage id f).page id = (s.page id).map (fun q => if q.id = id then f q else q) := by
    simp only [State.page, State.updatePage, State.setPages, List.find?_map, test]
  rw [found, h, Option.map_some, if_pos (page_some h).2]

theorem startRepeat_page {s : State} {id : PageId} {p : Page} (h : s.page id = some p) :
    (s.startRepeat id).page id = some p.restarted := by
  have restarted := updatePage_page h Page.restarted fun _ => rfl
  simp only [State.startRepeat, h]
  split
  · split
    · exact restarted
    · exact restarted
  · exact restarted

theorem gapEnd_keeps (id : PageId) (s : State) : Keeps s (gapEnd id s) := by
  unfold gapEnd
  split
  · rename_i p found
    obtain ⟨hp, rfl⟩ := page_some found
    refine .ite (fun ⟨playing, _⟩ => ?_) fun _ => .refl s
    obtain ⟨mem, -⟩ := page_some (startRepeat_page found)
    have taking := gapTaking_keeps mem playing (p.joining &&& (s.startRepeat p.id).grantableZones p) fun z hz => by
      rw [BitVec.getLsbD_and, Bool.and_eq_true] at hz
      exact hz.2
    exact ((startRepeat_keeps s p.id).trans taking).trans (duePasses_keeps _ _)
  · exact .refl s

end Sys2Proof.Machine
end

section
/-! The intercom switch keeps the invariants: the call table in place, the ends and the creation of calls, hold and
resume, and the station bus. -/

namespace Sys2Proof.Machine

/-! ### Calls and stations in place -/

theorem heldNow_iff (s : State) (c : Call) :
    s.heldNow c ↔ ∃ p ∈ c.stations, (s.listenZone p).any s.underGeneral = true := by
  rw [← underHold_iff, State.underHold, List.any_eq_true]

/-- Calls changed in place keep the intercom's invariants when each keeps its id and its stations, and comes to be
CONNECTED only when it is not under hold. -/
theorem setIcom_map_keeps {s : State} {x : Intercom} (g : Call → Call) (calls : x.calls = s.icom.calls.map g)
    (listen : ∀ p : Fin 32, (x.table[p]).bind (·.listen) = s.listenZone p)
    (key : ∀ c ∈ s.icom.calls, (g c).id = c.id ∧ (g c).stations = c.stations)
    (connected : s.callsOk → ∀ c ∈ s.icom.calls, (g c).state = .connected → c.state = .connected ∨ ¬ s.heldNow c) :
    Keeps s (s.setIcom x) where
  __ := Keeps.refl s
  calls := by
    rintro ⟨length, order⟩
    refine ⟨by rw [State.setIcom_icom, calls, List.length_map]; exact length, ?_⟩
    rw [State.setIcom_icom, calls, List.pairwise_map]
    exact order.imp_of_mem fun ha hb lt => by rw [(key _ ha).1, (key _ hb).1]; exact lt
  apart := by
    rintro - ⟨apart, single⟩
    refine ⟨?_, fun c hc => ?_⟩
    · rw [State.setIcom_icom, calls, List.pairwise_map]
      exact apart.imp_of_mem fun ha hb none => by rw [(key _ ha).2, (key _ hb).2]; exact none
    · rw [State.setIcom_icom, calls] at hc
      obtain ⟨d, hd, rfl⟩ := List.mem_map.mp hc
      rw [(key d hd).2]
      exact single d hd
  hold := by
    intro ok _ hold c hc isConnected
    rw [State.setIcom_icom, calls] at hc
    obtain ⟨d, hd, rfl⟩ := List.mem_map.mp hc
    have same : (s.setIcom x).heldNow (g d) ↔ s.heldNow d := by
      rw [heldNow_iff, heldNow_iff, (key d hd).2]
      have zone (p : Fin 32) : (s.setIcom x).listenZone p = s.listenZone p := listen p
      simp only [zone]
      rfl
    rw [same]
    exact (connected ok d hd isConnected).elim (hold d hd) id

theorem setIcom_keeps {s : State} {x : Intercom} (calls : x.calls = s.icom.calls)
    (listen : ∀ p : Fin 32, (x.table[p]).bind (·.listen) = s.listenZone p) : Keeps s (s.setIcom x) :=
  setIcom_map_keeps id (calls.trans (List.map_id _).symm) listen (fun _ _ => ⟨rfl, rfl⟩) fun _ _ _ h => .inl h

theorem updateStation_keeps (s : State) (p : Fin 32) (f : Station → Station) (h : ∀ e, (f e).listen = e.listen) :
    Keeps s (s.updateStation p f) :=
  setIcom_keeps rfl fun q => by
    rw [put_get]
    split
    · rename_i same
      rw [same, State.listenZone]
      cases s.icom.table[p] with
      | none => rfl
      | some e => exact h e
    · rfl

theorem setCue_keeps (s : State) (p : Fin 32) (n : Nat) : Keeps s (s.setCue p n) := updateStation_keeps s p _ fun _ => rfl

theorem updateCall_keeps (s : State) (id : CallId) (f : Call → Call)
    (key : ∀ c ∈ s.icom.calls, c.id = id → (f c).id = c.id ∧ (f c).stations = c.stations)
    (connected : s.callsOk → ∀ c ∈ s.icom.calls, c.id = id → (f c).state = .connected →
      c.state = .connected ∨ ¬ s.heldNow c) : Keeps s (s.updateCall id f) := by
  refine setIcom_map_keeps (fun c => if c.id = id then f c else c) rfl (fun _ => rfl) (fun c hc => ?_) fun ok c hc => ?_
  · split
    · exact key c hc ‹_›
    · exact ⟨rfl, rfl⟩
  · split
    · exact connected ok c hc ‹_›
    · exact .inl

/-! ### Ends -/

theorem filterCalls_keeps (s : State) (pick : Call → Bool) :
    Keeps s (s.setIcom { s.icom with calls := s.icom.calls.filter pick }) where
  __ := Keeps.refl s
  calls := fun ⟨length, order⟩ => ⟨(List.length_filter_le _ _).trans length, order.sublist List.filter_sublist⟩
  apart := fun _ ⟨apart, single⟩ => ⟨apart.sublist List.filter_sublist, fun c hc => single c (List.mem_of_mem_filter hc)⟩
  hold := fun _ _ hold c hc => hold c (List.mem_of_mem_filter hc)

theorem removeTrunkInsert_keeps (s : State) (id : CallId) : Keeps s (s.removeTrunkInsert id) := setRing_filter_keeps _ rfl rfl

theorem endCall_keeps (s : State) (id : CallId) (cause : BitVec 4) : Keeps s (s.endCall id cause) := by
  unfold State.endCall
  split
  · have removed := (filterCalls_keeps s (fun x => x.id != id)).trans (removeTrunkInsert_keeps _ id)
    have silenced (u : State) (p : Fin 32) : Keeps u (if (u.icom.presence[p]).present then u.setCue p 0 else u) :=
      .ite (fun _ => setCue_keeps u p 0) fun _ => .refl u
    exact (removed.trans (.foldl silenced _ _)).trans (post_keeps _ _ _ _)
  · exact .refl s

theorem endCalls_keeps (s : State) (pick : Call → Bool) (cause : BitVec 4) : Keeps s (s.endCalls pick cause) :=
  .foldl (fun s id => endCall_keeps s id cause) _ s

theorem callNoAnswer_keeps (id : CallId) (s : State) : Keeps s (callNoAnswer id s) := by
  unfold callNoAnswer
  split
  · exact .ite (fun _ => endCall_keeps _ _ _) fun _ => .refl s
  · exact .refl s

theorem callHeldTooLong_keeps (id : CallId) (s : State) : Keeps s (callHeldTooLong id s) := by
  unfold callHeldTooLong
  split
  · exact .ite (fun _ => endCall_keeps _ _ _) fun _ => .refl s
  · exact .refl s

/-- What the end of a call leaves of the call table. -/
theorem endCall_calls {s : State} {c : Call} (h : s.callWith c.id = some c) (cause : BitVec 4) :
    (s.endCall c.id cause).icom.calls = s.icom.calls.filter (fun x => x.id != c.id) := by
  have eq := endCall_eq s c cause.toNat h
  rw [BitVec.ofNat_toNat, BitVec.setWidth_eq] at eq
  rw [eq]
  rfl

/-! ### Creation -/

/-- The ids of a table in ascending order are distinct. -/
theorem State.callsOk.idsApart {s : State} (ok : s.callsOk) : (s.icom.calls.map (·.id)).Nodup := by
  obtain ⟨-, order⟩ := ok
  refine List.pairwise_map.mpr (order.imp fun lt same => ?_)
  rw [same] at lt
  exact absurd lt (Nat.lt_irrefl _)

theorem State.callsOk.eq {s : State} (ok : s.callsOk) {c d : Call} (hc : c ∈ s.icom.calls) (hd : d ∈ s.icom.calls)
    (id : c.id = d.id) : c = d :=
  List.inj_on_of_nodup_map ok.idsApart hc hd id

theorem idsAfter_nodup (last : CallId) : (idsAfter last).Nodup := by
  unfold idsAfter
  refine List.Nodup.map_on ?_ List.nodup_range
  intro j hj k hk same
  rw [List.mem_range] at hj hk
  have toNat := congrArg BitVec.toNat same
  simp only [BitVec.toNat_ofNat] at toNat
  have := last.isLt
  omega

theorem callWith_none_iff (s : State) (id : CallId) : s.callWith id = none ↔ ∀ c ∈ s.icom.calls, c.id ≠ id := by
  simp [State.callWith]

/-- A table with room for an id gives a new call the first one after the last that no record holds (R135). -/
theorem nextCallId_spec {s : State} (room : s.icom.calls.length < 255) :
    ∃ d < 255, s.nextCallId = BitVec.ofNat 8 ((s.icom.lastCall.toNat + d) % 255 + 1) ∧
      (∀ k < d, ∃ x ∈ s.icom.calls, x.id = BitVec.ofNat 8 ((s.icom.lastCall.toNat + k) % 255 + 1)) ∧
      ∀ x ∈ s.icom.calls, x.id ≠ s.nextCallId := by
  cases found : (idsAfter s.icom.lastCall).find? (fun id => (s.callWith id).isNone) with
  | none =>
    exfalso
    have used : idsAfter s.icom.lastCall ⊆ s.icom.calls.map (·.id) := by
      intro id hid
      have taken := List.find?_eq_none.mp found id hid
      rw [Option.isNone_iff_eq_none, callWith_none_iff] at taken
      push Not at taken
      obtain ⟨c, hc, same⟩ := taken
      exact List.mem_map.mpr ⟨c, hc, same⟩
    have := ((idsAfter_nodup s.icom.lastCall).subperm used).length_le
    rw [List.length_map, idsAfter, List.length_map, List.length_range] at this
    omega
  | some id =>
    have eq : s.nextCallId = id := by rw [State.nextCallId, found]; rfl
    obtain ⟨free, before, after, split, taken⟩ := List.find?_eq_some_iff_append.mp found
    have length := congrArg List.length split
    simp only [idsAfter, List.length_map, List.length_range, List.length_append, List.length_cons] at length
    have at_ (k : Nat) (hk : k < 255) : (idsAfter s.icom.lastCall)[k]? =
        some (BitVec.ofNat 8 ((s.icom.lastCall.toNat + k) % 255 + 1)) := by
      simp [idsAfter, hk]
    refine ⟨before.length, by omega, ?_, fun k hk => ?_, ?_⟩
    · have here := at_ before.length (by omega)
      rw [split, List.getElem?_append_right (Nat.le_refl _), Nat.sub_self, List.getElem?_cons_zero] at here
      rw [eq]
      exact Option.some.inj here
    · have here := at_ k (by omega)
      rw [split, List.getElem?_append_left hk] at here
      have used := taken _ (List.mem_of_getElem? here)
      rw [Bool.not_eq_true', Option.isNone_eq_false_iff, Option.isSome_iff_exists] at used
      obtain ⟨c, hc⟩ := used
      exact ⟨c, List.mem_of_find?_eq_some hc, by simpa using List.find?_some hc⟩
    · rw [eq]
      exact (callWith_none_iff s id).mp (Option.isNone_iff_eq_none.mp free)

theorem insertCall_perm (c : Call) (l : List Call) : (insertCall c l).Perm (c :: l) := by
  obtain ⟨before, after, rfl, eq⟩ := insertCall_split c l
  rw [eq]
  exact List.perm_middle

/-- A call of stations that are parties to no other joins a table with room. -/
theorem Keeps.createCall {s u : State} (h : Keeps s u) {parties : CallParties} (emergency : Bool) (headRef : Word16)
    (room : s.callsOk → u.icom.calls.length < 16)
    (free : s.callsOk → s.callsApart → ∀ p ∈ (newCall 0 parties false 0).stations, ∀ c ∈ u.icom.calls, p ∉ c.stations)
    (single : (newCall 0 parties false 0).stations.Nodup) : Keeps s (u.createCall parties emergency headRef) := by
  let c := newCall u.nextCallId parties emergency headRef
  have notConnected : c.state ≠ .connected := by cases parties <;> simp [c, newCall]
  have perm := insertCall_perm c u.icom.calls
  refine .trans (t := u.setIcom { u.icom with calls := insertCall c u.icom.calls, lastCall := c.id }) ?_
    (.foldl (fun s p => setCue_keeps s p 0) _ _)
  refine { memory := h.memory, control := h.control, trackers := h.trackers, inserts := h.inserts, alarm := h.alarm
           pages := h.pages, zones := h.zones, settings := h.settings, incoming := h.incoming, receiver := h.receiver
           calls := ?_, apart := ?_, hold := ?_ }
  · intro ok
    obtain ⟨-, order⟩ := h.calls ok
    have less := room ok
    obtain ⟨-, -, -, -, fresh⟩ := nextCallId_spec (s := u) (by omega)
    refine ⟨?_, insertCall_sorted c _ order fresh⟩
    rw [State.setIcom_icom, perm.length_eq, List.length_cons]
    omega
  · intro ok apart
    obtain ⟨others, singles⟩ := h.apart ok apart
    have symm {a b : Call} (none : ∀ p ∈ a.stations, p ∉ b.stations) : ∀ p ∈ b.stations, p ∉ a.stations :=
      fun p hb ha => none p ha hb
    refine ⟨perm.symm.pairwise (R := fun a b => ∀ p ∈ a.stations, p ∉ b.stations) ?_ fun h => symm h, fun d hd => ?_⟩
    · exact List.pairwise_cons.mpr ⟨fun d hd p hp => free ok apart p hp d hd, others⟩
    · rcases List.mem_cons.mp (perm.mem_iff.mp hd) with rfl | old
      · exact single
      · exact singles d old
  · intro ok alarm hold d hd connected
    rcases List.mem_cons.mp (perm.mem_iff.mp hd) with rfl | old
    · exact absurd connected notConnected
    · exact h.hold ok alarm hold d old connected

theorem callOf_none_iff (s : State) (p : Fin 32) : s.callOf p = none ↔ ∀ c ∈ s.icom.calls, p ∉ c.stations := by
  simp [State.callOf]

theorem callOf_of_idle {s : State} {p : Fin 32} (h : s.stationState p = .idle) : s.callOf p = none := by
  unfold State.stationState at h
  split at h
  · split at h
    · rename_i c _
      exfalso
      revert h
      unfold Call.stationState
      split
      · simp
      · simp
      · simp
      · split
        · split <;> simp
        · simp
        · split <;> simp
    · assumption
  · cases h

theorem not_callsFull {s : State} (h : s.callsFull = false) : s.icom.calls.length < 16 := by
  simpa [State.callsFull] using h

/-- A call between parties that are in no call. -/
theorem createCall_keeps {s : State} {parties : CallParties} (emergency : Bool) (headRef : Word16)
    (room : s.callsFull = false) (free : ∀ p ∈ (newCall 0 parties false 0).stations, s.callOf p = none)
    (single : (newCall 0 parties false 0).stations.Nodup) : Keeps s (s.createCall parties emergency headRef) :=
  (Keeps.refl s).createCall emergency headRef (fun _ => not_callsFull room)
    (fun _ _ p hp => (callOf_none_iff s p).mp (free p hp)) single

theorem createTrunkOut_keeps {s : State} {p : Fin 32} (n : DirNumber) (emergency : Bool) (room : s.callsFull = false)
    (idle : s.stationState p = .idle) : Keeps s (s.createTrunkOut p n emergency) := by
  refine (createCall_keeps (parties := .trunkOut p n) emergency 0 room (fun q hq => ?_) (List.nodup_singleton p)).trans
    (post_keeps _ _ _ _)
  rw [List.mem_singleton.mp hq]
  exact callOf_of_idle idle

theorem callWith_of_callOf {s : State} (ok : s.callsOk) {p : Fin 32} {c : Call} (h : s.callOf p = some c) :
    s.callWith c.id = some c :=
  callWith_of_mem s c ok.2 (callOf_mem s p c h).1

/-- A call takes the place of the call of one of its parties (R144). -/
theorem preempt_keeps {s : State} {p : Fin 32} {c : Call} (h : s.callOf p = some c) {parties : CallParties}
    (emergency : Bool) (headRef : Word16) (cause : BitVec 4)
    (free : ∀ q ∈ (newCall 0 parties false 0).stations, q = p ∨ s.callOf q = none)
    (single : (newCall 0 parties false 0).stations.Nodup) :
    Keeps s ((s.endCall c.id cause).createCall parties emergency headRef) := by
  obtain ⟨mem, own⟩ := callOf_mem s p c h
  refine (endCall_keeps s c.id cause).createCall emergency headRef (fun ok => ?_) (fun ok apart q hq d hd => ?_) single
  · rw [endCall_calls (callWith_of_callOf ok h)]
    have shorter : (s.icom.calls.filter (fun x => x.id != c.id)).length < s.icom.calls.length := by
      rw [List.length_filter_lt_length_iff_exists]
      exact ⟨c, mem, by simp⟩
    exact shorter.trans_le ok.1
  · rw [endCall_calls (callWith_of_callOf ok h), List.mem_filter] at hd
    obtain ⟨hd, other⟩ := hd
    rcases free q hq with rfl | none
    · have symm : Std.Symm (fun a b : Call => ∀ p ∈ a.stations, p ∉ b.stations) :=
        ⟨fun a b none p hb ha => none p ha hb⟩
      have ne : c ≠ d := fun same => by rw [same] at other; simp at other
      exact apart.1.forall mem hd ne q own
    · exact (callOf_none_iff s q).mp none d hd

/-! ### Hold and resume -/

/-- A call that would become CONNECTED is HELD when it is under hold. -/
theorem connect_keeps {s : State} {c : Call}
    (h : s.callsOk → ∀ x ∈ s.icom.calls, x.id = c.id → x.stations = c.stations) : Keeps s (s.connect c) := by
  refine updateCall_keeps s c.id _ (fun x _ _ => ?_) fun ok x hx id => ?_
  · split <;> exact ⟨rfl, rfl⟩
  · split
    · exact fun held => by cases held
    · rename_i free
      refine fun _ => .inr ?_
      rw [heldNow_iff, h ok x hx id, ← heldNow_iff, ← underHold_iff]
      exact free

theorem connect_callOf_keeps {s : State} {p : Fin 32} {c : Call} (h : s.callOf p = some c) : Keeps s (s.connect c) :=
  connect_keeps fun ok x hx id => by rw [ok.eq hx (callOf_mem s p c h).1 id]

theorem endActivation_keeps (s : State) (source : InsertSource) : Keeps s (s.endActivation source) :=
  setRing_keeps (endActivation_holdsOnly s source).slots rfl

/-- A call after a hand-off of coverage (R145). -/
def State.resettled (s : State) (c : Call) : Call :=
  match c.state with
  | .connected => if s.underHold c then { c with state := .held, holdTimer := 0 } else c
  | .held => if s.underHold c then c else { c with state := .connected }
  | _ => c

/-- The hand-off holds the call. -/
def State.comesToHold (s : State) (c : Call) : Bool := c.state == .connected && s.underHold c

@[simp] theorem resettled_id (s : State) (c : Call) : (s.resettled c).id = c.id := by
  unfold State.resettled
  split
  · split <;> rfl
  · split <;> rfl
  · rfl

theorem resettled_stations (s : State) (c : Call) : (s.resettled c).stations = c.stations := by
  unfold State.resettled
  split
  · split <;> rfl
  · split <;> rfl
  · rfl

theorem resettled_connected (s : State) (c : Call) (h : (s.resettled c).state = .connected) : s.underHold c = false := by
  unfold State.resettled at h
  split at h
  · split at h
    · cases h
    · rename_i free
      exact Bool.eq_false_iff.mpr free
  · rename_i held
    split at h
    · rw [held] at h; cases h
    · rename_i free
      exact Bool.eq_false_iff.mpr free
  · rename_i other _
    exact absurd h other

/-- The insert of a call whose activation ends when calls of a list come to hold. -/
def State.insertReset (s : State) (l : List Call) (i : Insert) : Insert :=
  if l.any (fun c => s.comesToHold c && i.source == .trunkCall c.id) then { i with clash := 0, reported := false } else i

theorem underHold_holdsOnly {s u : State} (h : HoldsOnly s u) (c : Call) : u.underHold c = s.underHold c := by
  rw [h.rest]
  rfl

theorem map_call_eq {l : List Call} {c : Call} (ids : (l.map (·.id)).Nodup) (hc : c ∈ l) (f : Call → Call) (d : Call)
    (h : f c = d) : l.map (fun x => if x.id = c.id then f x else x) = l.map (fun x => if x.id = c.id then d else x) := by
  apply List.map_congr_left
  intro x hx
  by_cases id : x.id = c.id
  · rw [if_pos id, if_pos id, List.inj_on_of_nodup_map ids hx hc id, h]
  · rw [if_neg id, if_neg id]

theorem map_call_same {l : List Call} {c : Call} (ids : (l.map (·.id)).Nodup) (hc : c ∈ l) :
    l.map (fun x => if x.id = c.id then c else x) = l := by
  rw [← map_call_eq ids hc id c rfl]
  simp

/-- One call at a hand-off of coverage. -/
theorem holdOrResume_eq {s u : State} (frame : HoldsOnly s u) (ids : (u.icom.calls.map (·.id)).Nodup) {c : Call}
    (hc : c ∈ u.icom.calls) :
    u.holdOrResume c = { u with
      ring := { u.ring with inserts := u.ring.inserts.map (s.insertReset [c]) }
      icom := { u.icom with calls := u.icom.calls.map (fun x => if x.id = c.id then s.resettled c else x) } } := by
  have hold := underHold_holdsOnly frame c
  have keepInserts (h : s.comesToHold c = false) : u.ring.inserts.map (s.insertReset [c]) = u.ring.inserts :=
    (List.map_congr_left fun i _ => if_neg (by simp [h])).trans (List.map_id' _)
  unfold State.holdOrResume
  split
  · rename_i connected
    by_cases held : s.underHold c = true
    · have comes : s.comesToHold c = true := by simp [State.comesToHold, connected, held]
      have resettled : s.resettled c = { c with state := .held, holdTimer := 0 } := by
        simp [State.resettled, connected, held]
      have inserts : u.ring.inserts.map (fun i => if i.source == .trunkCall c.id then { i with clash := 0, reported := false }
          else i) = u.ring.inserts.map (s.insertReset [c]) :=
        List.map_congr_left fun i _ => by simp [State.insertReset, comes]
      rw [if_pos (hold.trans held)]
      simp only [State.connect, hold, held, if_true, State.endActivation, State.updateCall, State.setRing, State.setIcom,
        map_call_eq ids hc _ _ rfl, resettled, inserts]
    · have stays : s.comesToHold c = false := by simp [State.comesToHold, held]
      have resettled : s.resettled c = c := by simp [State.resettled, connected, held]
      rw [if_neg (by rw [hold]; exact held), keepInserts stays, resettled, map_call_same ids hc]
  · rename_i isHeld
    have stays : s.comesToHold c = false := by simp [State.comesToHold, isHeld]
    rw [keepInserts stays]
    by_cases held : s.underHold c = true
    · have resettled : s.resettled c = c := by simp [State.resettled, isHeld, held]
      rw [if_pos (hold.trans held), resettled, map_call_same ids hc]
    · have resettled : s.resettled c = { c with state := .connected } := by simp [State.resettled, isHeld, held]
      have free : s.underHold c = false := Bool.eq_false_iff.mpr held
      rw [if_neg (by rw [hold]; exact held)]
      simp only [State.connect, hold, free, Bool.false_eq_true, if_false, State.updateCall, State.setIcom,
        map_call_eq ids hc _ _ rfl, resettled]
  · rename_i other other'
    have stays : s.comesToHold c = false := by
      cases state : c.state <;> simp_all [State.comesToHold]
    have resettled : s.resettled c = c := by
      cases state : c.state <;> simp_all [State.resettled]
    rw [keepInserts stays, resettled, map_call_same ids hc]

theorem foldl_holdOrResume {s u : State} (l : List Call) (frame : HoldsOnly s u) (apart : (l.map (·.id)).Nodup)
    (ids : (u.icom.calls.map (·.id)).Nodup) (sub : ∀ c ∈ l, c ∈ u.icom.calls) :
    l.foldl State.holdOrResume u = { u with
      ring := { u.ring with inserts := u.ring.inserts.map (s.insertReset l) }
      icom := { u.icom with
        calls := u.icom.calls.map (fun x => if x.id ∈ l.map (·.id) then s.resettled x else x) } } := by
  induction l generalizing u with
  | nil =>
    have inserts : u.ring.inserts.map (s.insertReset []) = u.ring.inserts :=
      (List.map_congr_left fun _ _ => rfl).trans (List.map_id' _)
    simp [inserts]
  | cons c rest ih =>
    obtain ⟨fresh, apart'⟩ := List.nodup_cons.mp apart
    have hc := sub c List.mem_cons_self
    have one := holdOrResume_eq frame ids hc
    have frame' := frame.trans (holdOrResume_holdsOnly u c)
    have ids' : ((u.holdOrResume c).icom.calls.map (·.id)).Nodup := by rw [(holdOrResume_holdsOnly u c).ids]; exact ids
    have sub' : ∀ d ∈ rest, d ∈ (u.holdOrResume c).icom.calls := by
      intro d hd
      rw [one]
      have other : d.id ≠ c.id := fun same => fresh (List.mem_map.mpr ⟨d, hd, same⟩)
      exact List.mem_map.mpr ⟨d, sub d (List.mem_cons_of_mem _ hd), if_neg other⟩
    have calls : (u.icom.calls.map (fun x => if x.id = c.id then s.resettled c else x)).map
          (fun x => if x.id ∈ rest.map (·.id) then s.resettled x else x) =
        u.icom.calls.map (fun x => if x.id ∈ (c :: rest).map (·.id) then s.resettled x else x) := by
      rw [List.map_map]
      apply List.map_congr_left
      intro x hx
      by_cases id : x.id = c.id
      · have same := List.inj_on_of_nodup_map ids hx hc id
        subst same
        have after : (s.resettled x).id ∉ rest.map (·.id) := by rwa [resettled_id]
        simp only [Function.comp_apply, if_true, if_neg after, List.map_cons, List.mem_cons, true_or]
      · simp [id]
    have inserts : (u.ring.inserts.map (s.insertReset [c])).map (s.insertReset rest) =
        u.ring.inserts.map (s.insertReset (c :: rest)) := by
      rw [List.map_map]
      apply List.map_congr_left
      intro i _
      by_cases first : (s.comesToHold c && i.source == .trunkCall c.id) = true
      · simp only [Function.comp_apply, State.insertReset, List.any_cons, first, List.any_nil, Bool.true_or, if_true]
        split <;> rfl
      · have first' := Bool.eq_false_iff.mpr first
        simp only [Function.comp_apply, State.insertReset, List.any_cons, first', List.any_nil, Bool.false_or,
          Bool.false_eq_true, if_false]
    rw [List.foldl_cons, ih frame' apart' ids' sub', one]
    simp only [calls, inserts]

/-- A hand-off of coverage to the intercom switch (R145). -/
theorem handIntercom_eq {s : State} (ids : (s.icom.calls.map (·.id)).Nodup) :
    s.handIntercom = { s with
      ring := { s.ring with inserts := s.ring.inserts.map (s.insertReset s.icom.calls) }
      icom := { s.icom with calls := s.icom.calls.map s.resettled } } := by
  have calls : s.icom.calls.map (fun x => if x.id ∈ s.icom.calls.map (·.id) then s.resettled x else x) =
      s.icom.calls.map s.resettled :=
    List.map_congr_left fun x hx => if_pos (List.mem_map_of_mem hx)
  rw [State.handIntercom, foldl_holdOrResume s.icom.calls (.refl s) ids ids fun _ h => h, calls]

/-- A hand-off leaves no CONNECTED call under hold. -/
theorem handIntercom_holdOk {s : State} (ok : s.callsOk) : s.handIntercom.holdOk := by
  intro c hc connected
  rw [handIntercom_eq ok.idsApart] at hc ⊢
  obtain ⟨d, -, rfl⟩ := List.mem_map.mp hc
  have free := resettled_connected s d connected
  rw [heldNow_iff, resettled_stations]
  change ¬ ∃ p ∈ d.stations, (s.listenZone p).any s.underGeneral = true
  rw [← heldNow_iff, ← underHold_iff, free]
  exact Bool.false_ne_true

theorem handIntercom_keeps (s : State) : Keeps s s.handIntercom := by
  have only := handIntercom_holdsOnly s
  have mapped (ok : s.callsOk) : Keeps s (s.setIcom { s.icom with calls := s.icom.calls.map s.resettled }) :=
    setIcom_map_keeps s.resettled rfl (fun _ => rfl) (fun c _ => ⟨resettled_id s c, resettled_stations s c⟩)
      fun _ c _ connected => .inr fun held => by
        rw [← underHold_iff, resettled_connected s c connected] at held
        exact Bool.false_ne_true held
  have calls (ok : s.callsOk) : s.handIntercom.icom.calls = s.icom.calls.map s.resettled := by
    rw [handIntercom_eq ok.idsApart]
  refine { memory := ?_, control := ?_, trackers := ?_, inserts := ?_, alarm := ?_, pages := ?_, zones := ?_
           calls := ?_, apart := ?_, hold := fun ok _ _ => handIntercom_holdOk ok
           settings := by rw [only.rest], incoming := by rw [only.rest], receiver := by rw [only.rest]; rfl }
  · rw [only.rest]; exact fun h => h
  · rw [only.rest]; exact fun h => h
  · rw [only.rest]; exact fun h => h
  · rw [State.insertsOk, State.insertsOk, only.slots]; exact fun h => h
  · rw [only.rest]; exact fun h => h
  · rw [only.rest]; exact fun h => h
  · rw [only.rest]; exact fun _ h => h
  · intro ok
    have := (mapped ok).calls ok
    rw [State.callsOk, calls ok]
    exact this
  · intro ok apart
    have := (mapped ok).apart ok apart
    rw [State.callsApart, calls ok]
    exact this

end Sys2Proof.Machine
end

section
/-! The station bus, the keys and the requests of the intercom switch keep the invariants. -/

namespace Sys2Proof.Machine

/-! ### The station bus -/

theorem setIcom_same_keeps {s : State} {x : Intercom} (calls : x.calls = s.icom.calls) (table : x.table = s.icom.table) :
    Keeps s (s.setIcom x) :=
  setIcom_keeps calls fun p => by rw [table]; rfl

theorem pollStart_keeps (s : State) : Keeps s s.pollStart := .ite (fun _ => setIcom_same_keeps rfl rfl) fun _ => .refl s

theorem pollCue_keeps (s : State) : Keeps s s.pollCue := .ite (fun _ => setIcom_same_keeps rfl rfl) fun _ => .refl s

theorem pollReply_keeps (port : Fin 32) (keys : List Key) (s : State) : Keeps s (pollReply port keys s) := by
  refine .ite (fun _ => ?_) fun _ => .refl s
  let answered := s.setIcom { s.icom with
    awaiting := none
    presence := put s.icom.presence port { present := true, misses := 0 }
    keys := s.icom.keys ++ keys.map (fun k => (port, k)) }
  have keeps : Keeps s answered := setIcom_same_keeps rfl rfl
  exact .ite (fun _ => keeps.trans (post_keeps answered _ _ _)) fun _ => keeps

theorem pollMiss_keeps (port : Fin 32) (s : State) : Keeps s (pollMiss port s) :=
  .ite (fun _ => setIcom_same_keeps rfl rfl) fun _ => .refl s

theorem releaseStationPage_keeps (s : State) (port : Fin 32) : Keeps s (s.releaseStationPage port) := by
  unfold State.releaseStationPage
  split
  · exact endPage_keeps _ _ _
  · exact .refl s

theorem loseStationPage_keeps (s : State) (port : Fin 32) : Keeps s (s.loseStationPage port) := by
  unfold State.loseStationPage
  split
  · exact endPage_keeps _ _ _
  · exact .refl s

theorem stationLost_keeps (port : Fin 32) (s : State) : Keeps s (stationLost port s) := by
  unfold stationLost
  simp only
  split
  · let gone := s.setIcom { s.icom with
      presence := put s.icom.presence port { s.icom.presence[port] with present := false } }
    have absent : Keeps s gone := setIcom_same_keeps rfl rfl
    have posted : Keeps s (gone.post .stationLost (BitVec.ofNat 16 port.val) 0) := absent.trans (post_keeps _ _ _ _)
    have ended : Keeps s (match s.callOf port with
        | some c => (gone.post .stationLost (BitVec.ofNat 16 port.val) 0).endCall c.id callStationLost
        | none => gone.post .stationLost (BitVec.ofNat 16 port.val) 0) := by
      split
      · exact posted.trans (endCall_keeps _ _ _)
      · exact posted
    split
    · exact (ended.trans (setCue_keeps _ _ _)).trans (loseStationPage_keeps _ _)
    · exact ended
  · exact .refl s

theorem cueTimerExpiry_keeps (port : Fin 32) (s : State) : Keeps s (cueTimerExpiry port s) :=
  .ite (fun _ => setCue_keeps _ _ _) fun _ => .refl s

theorem callTick_key (c : Call) : c.tick.id = c.id ∧ c.tick.stations = c.stations := by
  unfold Call.tick
  split <;> exact ⟨rfl, rfl⟩

theorem callTick_state (c : Call) : c.tick.state = c.state := by
  unfold Call.tick
  split <;> rfl

theorem stationTick_listen (e : Station) : e.tick.listen = e.listen := by
  unfold Station.tick
  split
  · rfl
  · split <;> rfl

/-- A table whose entries are changed in place with their listen zones. -/
theorem mapTable_listen (s : State) (f : Station → Station) (h : ∀ e, (f e).listen = e.listen) (p : Fin 32) :
    ((mapTable (fun _ (e : Option Station) => e.map f) s.icom.table)[p]).bind (·.listen) = s.listenZone p := by
  rw [mapTable_get, State.listenZone]
  cases s.icom.table[p] with
  | none => rfl
  | some e => exact h e

theorem icomTick_keeps (s : State) : Keeps s s.icomTick :=
  setIcom_map_keeps Call.tick rfl (mapTable_listen s Station.tick stationTick_listen) (fun c _ => callTick_key c)
    fun _ c _ connected => .inl (callTick_state c ▸ connected)

theorem icomReset_keeps (s : State) : Keeps s s.icomReset :=
  setIcom_keeps rfl (mapTable_listen s _ fun _ => rfl)

/-! ### Keys -/

theorem onKey_keeps {port : Fin 32} {key : Key} {act : Station → State → State} (h : ∀ e s, Keeps s (act e s)) (s : State) :
    Keeps s (s.onKey port key act) := by
  unfold State.onKey
  split
  · refine .ite (fun _ => ?_) fun _ => .refl s
    have taken (rest : List (Fin 32 × Key)) : Keeps s (s.setIcom { s.icom with keys := rest }) :=
      setIcom_same_keeps rfl rfl
    simp only
    split
    · exact (taken _).trans (h _ _)
    · exact taken _
  · exact .refl s

theorem refuseKey_keeps (s : State) (port : Fin 32) : Keeps s (s.refuseKey port) := setCue_keeps s port _

/-- A LOCAL call between two stations that are IDLE. -/
theorem createLocal_keeps {s : State} {a b : Fin 32} (emergency : Bool) (room : ¬ s.callsFull = true)
    (idleA : s.stationState a = .idle) (idleB : s.stationState b = .idle) (apart : ¬ b = a) :
    Keeps s (s.createCall (.loc a b) emergency 0) := by
  refine createCall_keeps emergency 0 (Bool.eq_false_iff.mpr room) (fun p hp => ?_) ?_
  · rcases List.mem_cons.mp hp with rfl | hb
    · exact callOf_of_idle idleA
    · rw [List.mem_singleton.mp hb]
      exact callOf_of_idle idleB
  · exact List.nodup_cons.mpr ⟨fun mem => apart (List.mem_singleton.mp mem).symm, List.nodup_singleton b⟩

theorem dial_keeps {s : State} {port : Fin 32} (number : DirNumber) (idle : s.stationState port = .idle) :
    Keeps s (s.dial port number) := by
  refine .ite (fun _ => refuseKey_keeps s port) fun room => ?_
  split
  · refine .ite (fun _ => refuseKey_keeps s port) fun apart => .ite (fun idleB => ?_) fun _ => refuseKey_keeps s port
    exact createLocal_keeps false room idle idleB apart
  · exact createTrunkOut_keeps number false (Bool.eq_false_iff.mpr room) idle

theorem callKey_keeps (port : Fin 32) (number : DirNumber) (s : State) : Keeps s (callKey port number s) :=
  onKey_keeps (fun _ s => .ite (fun idle => dial_keeps number idle) fun _ => .refl s) s

/-- An EMERGENCY call takes the place of the called station's call. -/
theorem preemptLocal_keeps {s : State} {a b : Fin 32} {c : Call} (h : s.callOf b = some c)
    (idle : s.stationState a = .idle) (apart : ¬ b = a) :
    Keeps s ((s.endCall c.id callPreempted).createCall (.loc a b) true 0) := by
  refine preempt_keeps h true 0 callPreempted (fun p hp => ?_) ?_
  · rcases List.mem_cons.mp hp with rfl | hb
    · exact .inr (callOf_of_idle idle)
    · exact .inl (List.mem_singleton.mp hb)
  · exact List.nodup_cons.mpr ⟨fun mem => apart (List.mem_singleton.mp mem).symm, List.nodup_singleton b⟩

theorem dialEmergency_keeps {s : State} {port : Fin 32} (number : DirNumber) (idle : s.stationState port = .idle) :
    Keeps s (s.dialEmergency port number) := by
  unfold State.dialEmergency
  split
  · refine .ite (fun _ => refuseKey_keeps s port) fun apart => ?_
    split
    · exact refuseKey_keeps s port
    · rename_i idleB
      exact .ite (fun _ => refuseKey_keeps s port) fun room => createLocal_keeps true room idle idleB apart
    · rename_i found _ _
      exact .ite (fun _ => refuseKey_keeps s port) fun _ => preemptLocal_keeps found idle apart
    · exact refuseKey_keeps s port
  · exact .ite (fun _ => refuseKey_keeps s port) fun room =>
      createTrunkOut_keeps number true (Bool.eq_false_iff.mpr room) idle

theorem emergencyKey_keeps (port : Fin 32) (s : State) : Keeps s (emergencyKey port s) :=
  onKey_keeps (fun _ s => .ite (fun ⟨idle, _⟩ => dialEmergency_keeps _ idle) fun _ => .refl s) s

theorem answerCall_keeps {s : State} {port : Fin 32} {c : Call} (h : s.callOf port = some c) :
    Keeps s (s.answerCall port c) := by
  have cue : (s.setCue port 0).callOf port = some c := h
  unfold State.answerCall
  split
  · exact (setCue_keeps s port 0).trans (connect_callOf_keeps cue)
  · have answered := updateCall_keeps (s.setCue port 0) c.id (fun x => { x with answered := true })
      (fun _ _ _ => ⟨rfl, rfl⟩) fun _ _ _ _ connected => .inl connected
    exact ((setCue_keeps s port 0).trans answered).trans (post_keeps _ _ _ _)

theorem answerKey_keeps (port : Fin 32) (s : State) : Keeps s (answerKey port s) := by
  refine onKey_keeps (fun _ s => ?_) s
  split
  · exact answerCall_keeps ‹_›
  · exact .refl s

theorem hangUpKey_keeps (port : Fin 32) (s : State) : Keeps s (hangUpKey port s) := by
  refine onKey_keeps (fun _ s => ?_) s
  split
  · exact .refl s
  · exact setCue_keeps s port 0
  · exact endCall_keeps _ _ _
  · exact .refl s

theorem pressRefused_eq_false {s : State} {port : Fin 32} {e : Station} (h : ¬ s.pressRefused port e = true) :
    s.page (stationPageId port) = none ∧ s.pages.queue.length < 32 ∧ e.pageGroup ≠ 0 := by
  simpa [State.pressRefused, and_assoc] using h

theorem pagePressKey_keeps (port : Fin 32) (s : State) : Keeps s (pagePressKey port s) := by
  refine onKey_keeps (fun e s => ?_) s
  split
  · exact .refl s
  · refine .ite (fun _ => .ite (fun _ => refuseKey_keeps s port) fun _ => .refl s) fun press => ?_
    obtain ⟨fresh, room, -⟩ := pressRefused_eq_false press
    have queue : (s.setCue port 0).pages = s.pages := rfl
    exact (setCue_keeps s port 0).trans (enqueue_keeps (p := stationPage port e) room fresh rfl rfl rfl)

theorem pageReleaseKey_keeps (port : Fin 32) (s : State) : Keeps s (pageReleaseKey port s) := by
  refine onKey_keeps (fun e s => ?_) s
  split
  · exact .refl s
  · exact (setCue_keeps s port 0).trans (releaseStationPage_keeps _ _)

theorem trimRequest_keeps (s : State) (z : Fin 24) (quieter : Bool) : Keeps s (s.trimRequest z quieter) :=
  setMix_keeps fun _ => by
    unfold State.zoneFields State.activeBank Mix.bank
    cases s.scene.active <;> rfl

theorem volumeKey_keeps (port : Fin 32) (key : Key) (quieter : Bool) (s : State) : Keeps s (volumeKey port key quieter s) := by
  refine onKey_keeps (fun e s => ?_) s
  split
  · exact .refl s
  · exact trimRequest_keeps _ _ _
  · exact .refl s

theorem handleKey_keeps (port : Fin 32) (key : Key) (s : State) : Keeps s (handleKey port key s) := by
  unfold handleKey
  split
  · exact callKey_keeps _ _ s
  · exact answerKey_keeps _ s
  · exact hangUpKey_keeps _ s
  · exact emergencyKey_keeps _ s
  · exact pagePressKey_keeps _ s
  · exact pageReleaseKey_keeps _ s
  · exact volumeKey_keeps _ _ _ s
  · exact volumeKey_keeps _ _ _ s

/-! ### Requests -/

/-- The entry of a station that is a party to no call is replaced. -/
theorem setStationEntry_keeps {s : State} {port : Fin 32} (e : Option Station) (free : ¬ s.stationInUse port = true) :
    Keeps s (s.setStationEntry port e) where
  __ := Keeps.refl s
  hold := by
    intro _ _ hold c hc connected
    have noCall : s.callOf port = none := by
      simp only [State.stationInUse, Bool.or_eq_true, not_or] at free
      simpa using free.1
    have other : ∀ p ∈ c.stations, p ≠ port := fun p hp same => (callOf_none_iff s port).mp noCall c hc (same ▸ hp)
    have listen (p : Fin 32) (ne : p ≠ port) : (s.setStationEntry port e).listenZone p = s.listenZone p := by
      unfold State.listenZone State.setStationEntry
      rw [State.setIcom_icom, put_get_ne _ _ _ _ ne]
    refine fun held => hold c hc connected ?_
    rw [heldNow_iff] at held ⊢
    obtain ⟨p, hp, general⟩ := held
    exact ⟨p, hp, listen p (other p hp) ▸ general⟩

theorem setStation_answered (ws : List Word16) (s : State) : Answered s 0 (Keeps s) (setStation ws s) := by
  unfold setStation
  split
  · split
    · exact .refusal rfl
    · refine .ite (fun _ => ?_) fun _ => ?_
      · exact .ite (fun _ => .refusal rfl) fun _ => .ite (fun _ => .refusal rfl) fun free => .ok (setStationEntry_keeps _ free)
      · split
        · exact .refusal rfl
        · exact .ite (fun _ => .refusal rfl) fun free => .ite (fun _ => .refusal rfl) fun _ => .ite (fun _ => .refusal rfl)
            fun _ => .ok (setStationEntry_keeps _ free)
  · exact .refusal rfl

/-- The room that OFFER CALL finds at a station (R139). -/
theorem offerRoom_free {s : State} {p : Fin 32} {emergency : Bool} (h : s.offerRoom p emergency = .free) :
    s.stationState p = .idle := by
  unfold State.offerRoom at h
  split at h
  · cases h
  · assumption
  · split at h <;> cases h
  · cases h

theorem offerRoom_preempt {s : State} {p : Fin 32} {emergency : Bool} {id : CallId}
    (h : s.offerRoom p emergency = .preempt id) : ∃ c, s.callOf p = some c ∧ c.id = id := by
  unfold State.offerRoom at h
  split at h
  · cases h
  · cases h
  · split at h
    · cases h
      exact ⟨_, ‹s.callOf p = some _›, rfl⟩
    · cases h
  · cases h

theorem offerCall_answered (ws : List Word16) (s : State) : Answered s 1 (Keeps s) (offerCall ws s) := by
  unfold offerCall
  split
  · simp only
    split
    · refine .ite (fun _ => .refusal rfl) fun _ => ?_
      split
      · exact .refusal rfl
      · rename_i p _
        split
        · exact .refusal rfl
        · rename_i free
          refine .ite (fun _ => .refusal rfl) fun room => .report rfl ?_
          refine createCall_keeps _ _ (Bool.eq_false_iff.mpr room) (fun q hq => ?_) (List.nodup_singleton p)
          rw [List.mem_singleton.mp hq]
          exact callOf_of_idle (offerRoom_free free)
        · rename_i preempt
          obtain ⟨c, found, rfl⟩ := offerRoom_preempt preempt
          exact .report rfl (preempt_keeps found _ _ _ (fun q hq => .inl (List.mem_singleton.mp hq))
            (List.nodup_singleton p))
    · exact .refusal rfl
  · exact .refusal rfl

theorem addInsert_keeps {s : State} {slot : Fin 64} (source : InsertSource) (free : s.slotNamed slot = false) :
    Keeps s (s.addInsert slot source) where
  __ := Keeps.refl s
  inserts := fun slots => addInsert_nodup s slot source slots free

theorem callWith_some {s : State} {id : CallId} {c : Call} (h : s.callWith id = some c) :
    c ∈ s.icom.calls ∧ c.id = id :=
  ⟨List.mem_of_find?_eq_some h, by simpa using List.find?_some h⟩

theorem bridge_keeps {s : State} {id : CallId} {c : Call} (found : s.callWith id = some c) (tx rx : Fin 64)
    (free : s.slotNamed tx = false) : Keeps s (s.bridge c tx rx) := by
  obtain ⟨hc, rfl⟩ := callWith_some found
  have slots := updateCall_keeps (s.addInsert tx (.trunkCall c.id)) c.id (fun x => { x with tx := some tx, rx := some rx })
    (fun _ _ _ => ⟨rfl, rfl⟩) fun _ _ _ _ connected => .inl connected
  refine ((addInsert_keeps _ free).trans slots).trans (connect_keeps fun ok x hx id => ?_)
  obtain ⟨y, hy, rfl⟩ := List.mem_map.mp hx
  have original (y : Call) (hy : y ∈ s.icom.calls) (h : y.id = c.id) : y = c := by
    have ids : (s.icom.calls.map (·.id)).Nodup := by
      have after := ok.idsApart
      have same : (((s.addInsert tx (.trunkCall c.id)).updateCall c.id
          (fun x => { x with tx := some tx, rx := some rx })).icom.calls).map (·.id) = s.icom.calls.map (·.id) := by
        simp only [State.updateCall, State.setIcom_icom, List.map_map]
        refine List.map_congr_left fun x _ => ?_
        simp only [Function.comp_apply]
        split <;> rfl
      rwa [same] at after
    exact List.inj_on_of_nodup_map ids hy hc h
  split at id
  · rw [if_pos ‹_›, original y hy ‹_›]
    rfl
  · exact absurd id ‹_›

theorem bridgeCall_answered (ws : List Word16) (s : State) : Answered s 0 (Keeps s) (bridgeCall ws s) := by
  unfold bridgeCall
  split
  · split
    · split
      · exact .refusal rfl
      · exact .ite (fun _ => .refusal rfl) fun _ => .ite (fun _ => .refusal rfl) fun named =>
          .ok (bridge_keeps ‹_› _ _ (Bool.eq_false_iff.mpr named))
    · exact .refusal rfl
  · exact .refusal rfl

theorem endCallRequest_answered (ws : List Word16) (s : State) : Answered s 0 (Keeps s) (endCallRequest ws s) := by
  unfold endCallRequest
  split
  · split
    · exact .refusal rfl
    · exact .ite (fun _ => .refusal rfl) fun _ => .ite (fun _ => .refusal rfl) fun _ => .ok (endCall_keeps _ _ _)
  · exact .refusal rfl

theorem readCall_answered (ws : List Word16) (s : State) : Answered s 6 (Keeps s) (readCall ws s) := by
  unfold readCall
  split
  · split
    · exact .refusal rfl
    · split
      · exact .refusal rfl
      · exact .report rfl (.refl s)
  · exact .refusal rfl

end Sys2Proof.Machine
end

section
/-! The alarm engine keeps the invariants: the giving out of generators, coverage and its hand-off, the start and the end
of records, contacts, timers and requests. -/

namespace Sys2Proof.Machine

/-! ### The giving out of generators -/

theorem mem_allZones (z : Fin 24) : z ∈ allZones := mem_indices z

theorem mem_of_mem_ranked {a : Alarm} {es : List (Fin 8)} {e : Fin 8} (h : e ∈ a.ranked es) : e ∈ es := by
  obtain ⟨r, -, mem⟩ := List.mem_flatMap.mp h
  exact List.mem_of_mem_filter mem

theorem mem_of_mem_winners {a : Alarm} {e : Fin 8} (h : e ∈ a.winners) :
    e ∈ a.startOrder ∧ ∃ z : Fin 24, a.coverage[z] = some e := by
  obtain ⟨order, covers⟩ := List.mem_filter.mp (mem_of_mem_ranked h)
  obtain ⟨z, -, same⟩ := List.any_eq_true.mp covers
  exact ⟨order, z, by simpa using same⟩

/-- A generator sounds one record, no two the same. -/
def Alarm.generatorsApart (a : Alarm) : Prop :=
  ∀ (i j : Fin 4) (g h : Generator), a.generators[i] = some g → a.generators[j] = some h → g.entry = h.entry → i = j

theorem holds_iff (a : Alarm) (e : Fin 8) :
    a.holds e = true ↔ ∃ (i : Fin 4) (g : Generator), a.generators[i] = some g ∧ g.entry = e := by
  simp only [Alarm.holds, List.any_eq_true, mem_indices, true_and, Option.any_eq_true, beq_iff_eq]

/-- The generator that starts for an entry. -/
def Alarm.newGenerator (a : Alarm) (e : Fin 8) : Generator :=
  Generator.start e (((a.records[e]).map (·.pattern)).getD 0)

/-- Taking a generator: nothing when the record holds one or none is free, the lowest free one otherwise. -/
theorem takeGenerator_cases (a : Alarm) (e : Fin 8) :
    (a.holds e = true ∧ a.takeGenerator e = a) ∨
    (a.holds e = false ∧ (∀ i : Fin 4, a.generators[i] ≠ none) ∧ a.takeGenerator e = a) ∨
    ∃ i : Fin 4, a.holds e = false ∧ a.generators[i] = none ∧ (∀ j < i, a.generators[j] ≠ none) ∧
      a.takeGenerator e = { a with generators := put a.generators i (some (a.newGenerator e)) } := by
  unfold Alarm.takeGenerator
  split
  · exact .inl ⟨‹_›, rfl⟩
  · rename_i noHold
    have free := Bool.eq_false_iff.mpr noHold
    split
    · rename_i i found
      obtain ⟨isFree, k, inRange, at_, before⟩ := List.find?_eq_some_iff_getElem.mp found
      have length : (indices 4).length = 4 := rfl
      have get (k : Nat) (hk : k < (indices 4).length) : (indices 4)[k] = ⟨k, length ▸ hk⟩ :=
        List.getElem_ofFn _
      rw [get] at at_
      refine .inr (.inr ⟨i, free, by simpa using isFree, fun j hj => ?_, rfl⟩)
      have lt : j.val < k := by rw [← at_] at hj; exact hj
      have taken := before j.val lt
      rw [get] at taken
      simpa using Option.isSome_iff_ne_none.mp (by simpa using taken)
    · rename_i none
      exact .inr (.inl ⟨free, fun i => by simpa using List.find?_eq_none.mp none i (mem_indices i), rfl⟩)

theorem takeGenerator_entry {a : Alarm} {e : Fin 8} {i : Fin 4} {g : Generator}
    (h : (a.takeGenerator e).generators[i] = some g) : a.generators[i] = some g ∨ g.entry = e := by
  rcases takeGenerator_cases a e with ⟨-, same⟩ | ⟨-, -, same⟩ | ⟨j, -, -, -, same⟩
  · exact .inl (same ▸ h)
  · exact .inl (same ▸ h)
  · simp only [same, put_get] at h
    split at h
    · cases h
      exact .inr rfl
    · exact .inl h

theorem takeGenerator_apart {a : Alarm} (e : Fin 8) (h : a.generatorsApart) : (a.takeGenerator e).generatorsApart := by
  rcases takeGenerator_cases a e with ⟨-, same⟩ | ⟨-, -, same⟩ | ⟨k, noHold, -, -, same⟩
  · rwa [same]
  · rwa [same]
  · have other (i : Fin 4) (g : Generator) (hg : a.generators[i] = some g) : g.entry ≠ e := fun entry =>
      Bool.false_ne_true (noHold.symm.trans ((holds_iff a e).mpr ⟨i, g, hg, entry⟩))
    rw [same]
    intro i j g f hg hf entry
    simp only [put_get] at hg hf
    split at hg <;> split at hf
    · exact ‹i = k›.trans ‹j = k›.symm
    · cases hg
      exact absurd entry.symm (other j f hf)
    · cases hf
      exact absurd entry (other i g hg)
    · exact h i j g f hg hf entry

theorem keepGenerators_get {a : Alarm} {pick : Fin 8 → Bool} {i : Fin 4} {g : Generator} :
    (a.keepGenerators pick).generators[i] = some g ↔ a.generators[i] = some g ∧ pick g.entry = true := by
  unfold Alarm.keepGenerators
  rw [mapTable_get, Option.filter_eq_some_iff]

theorem keepGenerators_apart {a : Alarm} (pick : Fin 8 → Bool) (h : a.generatorsApart) :
    (a.keepGenerators pick).generatorsApart := fun i j g f hg hf =>
  h i j g f (keepGenerators_get.mp hg).1 (keepGenerators_get.mp hf).1

theorem allocate_apart {a : Alarm} (h : a.generatorsApart) : a.allocate.generatorsApart := by
  rw [allocate_eq]
  generalize a.winners.take 4 = l
  have start := keepGenerators_apart (fun e => l.contains e) h
  generalize a.keepGenerators (fun e => l.contains e) = b at start
  induction l generalizing b with
  | nil => exact start
  | cons e rest ih => exact ih _ (takeGenerator_apart e start)

theorem foldl_takeGenerator_entry {l : List (Fin 8)} {a : Alarm} {i : Fin 4} {g : Generator}
    (h : (l.foldl Alarm.takeGenerator a).generators[i] = some g) : a.generators[i] = some g ∨ g.entry ∈ l := by
  induction l generalizing a with
  | nil => exact .inl h
  | cons e rest ih =>
    rcases ih h with old | new
    · rcases takeGenerator_entry old with older | own
      · exact .inl older
      · exact .inr (List.mem_cons.mpr (.inl own))
    · exact .inr (List.mem_cons_of_mem _ new)

theorem allocate_winner {a : Alarm} {i : Fin 4} {g : Generator} (h : a.allocate.generators[i] = some g) :
    g.entry ∈ a.winners.take 4 := by
  rw [allocate_eq] at h
  rcases foldl_takeGenerator_entry h with kept | new
  · simpa using (keepGenerators_get.mp kept).2
  · exact new

/-! ### Coverage computed anew -/

theorem setAlarm_recompute_alarmOk {s : State} (h : s.recordsOk) : (s.setAlarm s.alarm.recompute).alarmOk := by
  obtain ⟨nodup, order, apart⟩ := h
  obtain ⟨coverage, same⟩ := recompute_spec s.alarm
  have records : (s.setAlarm s.alarm.recompute).alarm.records = s.alarm.records := same.records
  have startOrder : (s.setAlarm s.alarm.recompute).alarm.startOrder = s.alarm.startOrder := same.startOrder
  refine ⟨startOrder ▸ nodup, fun e => ?_, fun z e covered => ?_, fun i g hg => ?_, allocate_apart (a := { s.alarm with coverage := Vector.ofFn s.alarm.winnerOf }) apart⟩
  · rw [startOrder, records]
    exact order e
  · have wins := winnerOf_covers _ _ _ ((coverage z).symm.trans covered)
    rw [records]
    unfold Alarm.covers at wins
    obtain ⟨r, hr, sounding⟩ := Option.any_eq_true _ _ |>.mp wins
    exact ⟨r, hr, by simpa using (Bool.and_eq_true _ _ ▸ sounding).1⟩
  · have winner : g.entry ∈ s.alarm.startOrder :=
      (mem_of_mem_winners (List.mem_of_mem_take (allocate_winner hg))).1
    rw [records]
    exact (order _).mp winner

/-- What the neighbours see of one zone. -/
def Alarm.seen (a : Alarm) (z : Fin 24) : Option (Fin 8 × Option AlarmClass) :=
  (a.coverage[z]).map (fun e => (e, (a.records[e]).map (·.cls)))

theorem presented_eq_iff (a b : Alarm) : a.presented = b.presented ↔ ∀ z, a.seen z = b.seen z := by
  unfold Alarm.presented
  rw [List.map_inj_left]
  exact ⟨fun h z => h z (mem_allZones z), fun h z _ => h z⟩

theorem covered_eq_seen (s : State) (z : Fin 24) : s.covered z = (s.alarm.seen z).isSome := by
  rw [State.covered, Alarm.seen, Option.isSome_map]

theorem underGeneral_eq_seen (s : State) (z : Fin 24) :
    s.underGeneral z = (s.alarm.seen z).any (fun x => x.2.any (· == .general)) := by
  unfold State.underGeneral State.winner Alarm.seen
  cases s.alarm.coverage[z] with
  | none => rfl
  | some e =>
    simp only [Option.map_some, Option.any_some]
    cases s.alarm.records[e] <;> rfl

/-! ### Writing the alarm engine -/

/-- The zones' freedom and the hold read the zones covered and those under GENERAL coverage. -/
theorem setAlarm_keeps {s : State} {x : Alarm} (alarm : s.alarmOk → (s.setAlarm x).alarmOk)
    (covered : ∀ z, (s.setAlarm x).covered z = s.covered z)
    (general : s.alarmOk → ∀ z, (s.setAlarm x).underGeneral z = true → s.underGeneral z = true) :
    Keeps s (s.setAlarm x) where
  __ := Keeps.refl s
  alarm := alarm
  zones := fun _ free p hp z hz => by
    obtain ⟨uncovered, unlocked⟩ := free p hp z hz
    exact ⟨(covered z).trans uncovered, unlocked⟩
  hold := fun _ ok hold c hc connected held => by
    refine hold c hc connected ?_
    rw [heldNow_iff] at held ⊢
    obtain ⟨p, hp, under⟩ := held
    refine ⟨p, hp, ?_⟩
    obtain ⟨z, hz, under⟩ := Option.any_eq_true _ _ |>.mp under
    exact Option.any_eq_true _ _ |>.mpr ⟨z, hz, general ok z under⟩

theorem setAlarm_seen_keeps {s : State} {x : Alarm} (alarm : s.alarmOk → (s.setAlarm x).alarmOk)
    (seen : ∀ z, x.seen z = s.alarm.seen z) : Keeps s (s.setAlarm x) :=
  setAlarm_keeps alarm (fun z => by rw [covered_eq_seen, covered_eq_seen]; exact congrArg _ (seen z))
    fun _ z under => by rw [underGeneral_eq_seen, State.setAlarm_alarm, seen z] at under; rwa [underGeneral_eq_seen]

/-- Records and generators changed in place. -/
theorem alarmOk_inPlace {s : State} {x : Alarm} (startOrder : x.startOrder = s.alarm.startOrder)
    (coverage : x.coverage = s.alarm.coverage)
    (records : ∀ e : Fin 8, x.records[e] = none ↔ s.alarm.records[e] = none)
    (sounding : ∀ (e : Fin 8) (r : AlarmRec), s.alarm.records[e] = some r → r.sounding = true →
      ∃ r', x.records[e] = some r' ∧ r'.sounding = true)
    (generators : ∀ (i : Fin 4) (g : Generator), x.generators[i] = some g →
      ∃ g', s.alarm.generators[i] = some g' ∧ g'.entry = g.entry) (h : s.alarmOk) : (s.setAlarm x).alarmOk := by
  obtain ⟨nodup, order, covers, held, apart⟩ := h
  refine ⟨startOrder ▸ nodup, fun e => ?_, fun z e covered => ?_, fun i g hg => ?_, fun i j g f hg hf entry => ?_⟩
  · rw [State.setAlarm_alarm, startOrder, order e]
    exact not_congr (records e).symm
  · obtain ⟨r, hr, on⟩ := covers z e (coverage ▸ covered)
    exact sounding e r hr on
  · obtain ⟨g', hg', entry⟩ := generators i g hg
    have named (f : Fin 8) (same : g'.entry = f) : x.records[f] ≠ none := by
      subst same
      exact fun none => held i g' hg' ((records _).mp none)
    exact named _ entry
  · obtain ⟨g', hg', entryG⟩ := generators i g hg
    obtain ⟨f', hf', entryF⟩ := generators j f hf
    exact apart i j g' f' hg' hf' (entryG.trans (entry.trans entryF.symm))

/-- An alarm engine with other records gives out coverage anew and hands it on. -/
theorem setAlarm_recoverage_keeps {s : State} {x : Alarm} (h : s.alarmOk → (s.setAlarm x).recordsOk) :
    Keeps s ((s.setAlarm x).recoverage s.alarm) := by
  let u := s.setAlarm x.recompute
  have alarm (ok : s.alarmOk) : u.alarmOk := setAlarm_recompute_alarmOk (s := s.setAlarm x) (h ok)
  refine Keeps.ite (t := u) (u := u.handScheduler.handIntercom) (fun same => ?_) fun _ => ?_
  · exact setAlarm_seen_keeps alarm ((presented_eq_iff _ _).mp same)
  · have scheduler := handScheduler_keeps u
    have intercom := handIntercom_keeps u.handScheduler
    have both := scheduler.trans intercom
    exact
      { memory := both.memory, control := both.control, trackers := both.trackers, inserts := both.inserts
        alarm := both.alarm ∘ alarm, pages := both.pages, calls := both.calls, apart := both.apart
        zones := fun ok _ => intercom.zones (scheduler.pages ok) (handScheduler_zonesFree (s := u) ok)
        hold := fun ok _ _ => handIntercom_holdOk (scheduler.calls ok)
        settings := both.settings, incoming := both.incoming, receiver := both.receiver }

/-! ### Records -/

theorem placeSend_keeps (s : State) (w : SendWord) : Keeps s (s.placeSend w) := setRing_keeps rfl rfl

theorem placeRecord_keeps (s : State) (e : Fin 8) (r : AlarmRec) (on : Bool) : Keeps s (s.placeRecord e r on) :=
  placeSend_keeps _ _

/-- What a record's start or end posts and sends. -/
def State.announced (s : State) (kind : EventKind) (n : Word16) (d : BitVec 4) (e : Fin 8) (r : AlarmRec) (on : Bool) : State :=
  if r.broadcast then (s.post kind n d).placeRecord e r on else s.post kind n d

theorem announced_keeps (s : State) (kind : EventKind) (n : Word16) (d : BitVec 4) (e : Fin 8) (r : AlarmRec) (on : Bool) :
    Keeps s (s.announced kind n d e r on) :=
  .ite (fun _ => (post_keeps _ _ _ _).trans (placeRecord_keeps _ _ _ _)) fun _ => post_keeps _ _ _ _

theorem setAlarm_announced (s : State) (x : Alarm) (kind : EventKind) (n : Word16) (d : BitVec 4) (e : Fin 8) (r : AlarmRec)
    (on : Bool) : (s.setAlarm x).announced kind n d e r on = (s.announced kind n d e r on).setAlarm x := by
  unfold State.announced
  split <;> rfl

theorem announced_alarm (s : State) (kind : EventKind) (n : Word16) (d : BitVec 4) (e : Fin 8) (r : AlarmRec) (on : Bool) :
    (s.announced kind n d e r on).alarm = s.alarm := by
  unfold State.announced
  split <;> rfl

/-- A record has joined its entry and the start order. -/
def Alarm.started (a : Alarm) (e : Fin 8) (r : AlarmRec) : Alarm :=
  { a with records := put a.records e (some r), startOrder := a.startOrder.filter (· != e) ++ [e] }

/-- A record has left its entry, the start order and its generator. -/
def Alarm.ended (a : Alarm) (e : Fin 8) : Alarm :=
  { a with records := put a.records e none, startOrder := a.startOrder.filter (· != e) }.keepGenerators (· != e)

theorem started_recordsOk {s : State} (e : Fin 8) (r : AlarmRec) (h : s.alarmOk) :
    (s.setAlarm (s.alarm.started e r)).recordsOk := by
  obtain ⟨nodup, order, -, -, apart⟩ := h
  refine ⟨?_, fun f => ?_, apart⟩
  · refine List.nodup_append.mpr ⟨nodup.filter _, List.nodup_singleton e, fun f hf g hg => ?_⟩
    rw [List.mem_singleton.mp hg]
    simpa using (List.mem_filter.mp hf).2
  · simp only [State.setAlarm_alarm, Alarm.started, List.mem_append, List.mem_filter, List.mem_singleton, put_get]
    by_cases same : f = e
    · simp [same]
    · simp [same, order f]

theorem startRecord_keeps (s : State) (e : Fin 8) (r : AlarmRec) : Keeps s (s.startRecord e r) := by
  let v := s.announced .alarmBegun (BitVec.ofNat 16 e.val) (BitVec.ofNat 4 r.cls.rank) e r true
  have announced : Keeps s v := announced_keeps _ _ _ _ _ _ _
  have eq : s.startRecord e r = (v.setAlarm (v.alarm.started e r)).recoverage v.alarm := by
    unfold v
    rw [announced_alarm, ← setAlarm_announced]
    rfl
  rw [eq]
  exact announced.trans (setAlarm_recoverage_keeps (started_recordsOk e r))

theorem ended_order {s : State} (e : Fin 8) (h : s.alarmOk) :
    (s.alarm.ended e).startOrder.Nodup ∧
      ∀ f : Fin 8, f ∈ (s.alarm.ended e).startOrder ↔ (s.alarm.ended e).records[f] ≠ none := by
  obtain ⟨nodup, order, -, -, -⟩ := h
  refine ⟨nodup.filter _, fun f => ?_⟩
  simp only [Alarm.ended, Alarm.keepGenerators, List.mem_filter, put_get]
  by_cases same : f = e
  · simp [same]
  · simp [same, order f]

theorem ended_apart {s : State} (e : Fin 8) (h : s.alarmOk) : (s.alarm.ended e).generatorsApart := by
  obtain ⟨-, -, -, -, apart⟩ := h
  exact keepGenerators_apart (a := { s.alarm with
    records := put s.alarm.records e none, startOrder := s.alarm.startOrder.filter (· != e) }) _ apart

/-- The end of a record that is not SOUNDING changes no coverage. -/
theorem ended_keeps {s : State} {e : Fin 8} {r : AlarmRec} (found : s.alarm.records[e] = some r)
    (silent : r.sounding = false) : Keeps s (s.setAlarm (s.alarm.ended e)) := by
  have records (f : Fin 8) : (s.alarm.ended e).records[f] = if f = e then none else s.alarm.records[f] := put_get _ _ _ _
  have coverage : (s.alarm.ended e).coverage = s.alarm.coverage := rfl
  refine setAlarm_keeps (fun ok => ?_) (fun _ => rfl) fun _ z under => ?_
  · obtain ⟨nodup, order⟩ := ended_order e ok
    refine ⟨nodup, order, fun z f covered => ?_, fun i g hg => ?_, ended_apart e ok⟩
    · obtain ⟨-, -, covers, -, -⟩ := ok
      obtain ⟨q, hq, on⟩ := covers z f covered
      refine ⟨q, ?_, on⟩
      rw [State.setAlarm_alarm, records, if_neg ?_, hq]
      rintro rfl
      rw [found] at hq
      cases hq
      exact Bool.false_ne_true (silent.symm.trans on)
    · obtain ⟨-, -, -, held, -⟩ := ok
      obtain ⟨old, other⟩ := keepGenerators_get.mp hg
      rw [State.setAlarm_alarm, records, if_neg (by simpa using other)]
      exact held i g old
  · unfold State.underGeneral State.winner at under ⊢
    rw [State.setAlarm_alarm, coverage] at under
    revert under
    cases s.alarm.coverage[z] with
    | none => exact id
    | some f =>
      simp only [records]
      split
      · intro h; cases h
      · exact id

theorem endRecord_keeps (s : State) (e : Fin 8) (cause : BitVec 4) : Keeps s (s.endRecord e cause) := by
  cases found : s.alarm.records[e] with
  | none =>
    unfold State.endRecord
    rw [found]
    exact .refl s
  | some r =>
    let v := s.announced .alarmEnded (BitVec.ofNat 16 e.val) cause e r false
    have announced : Keeps s v := announced_keeps _ _ _ _ _ _ _
    have alarm : v.alarm = s.alarm := announced_alarm _ _ _ _ _ _ _
    have eq : s.endRecord e cause = if r.sounding then (v.setAlarm (v.alarm.ended e)).recoverage v.alarm
        else v.setAlarm (v.alarm.ended e) := by
      unfold State.endRecord
      rw [found]
      unfold v
      rw [announced_alarm, ← setAlarm_announced]
      rfl
    rw [eq]
    refine announced.trans (.ite (fun _ => setAlarm_recoverage_keeps fun ok => ?_) fun silent => ?_)
    · obtain ⟨nodup, order⟩ := ended_order e ok
      exact ⟨nodup, order, ended_apart e ok⟩
    · exact ended_keeps (alarm ▸ found) (Bool.eq_false_iff.mpr silent)

/-- One record replaced by another of its entry: the start order and the generators stand as they are. -/
theorem replaced_recordsOk {s : State} {e : Fin 8} {r : AlarmRec} {x : Alarm} (found : s.alarm.records[e] = some r)
    (r' : AlarmRec) (records : x.records = put s.alarm.records e (some r')) (startOrder : x.startOrder = s.alarm.startOrder)
    (generators : ∀ (i : Fin 4) (g : Generator), x.generators[i] = some g →
      ∃ g', s.alarm.generators[i] = some g' ∧ g'.entry = g.entry) (h : s.alarmOk) : (s.setAlarm x).recordsOk := by
  obtain ⟨nodup, order, -, -, apart⟩ := h
  refine ⟨startOrder ▸ nodup, fun f => ?_, fun i j g k hg hk entry => ?_⟩
  · rw [State.setAlarm_alarm, startOrder, order f, records, put_get]
    split
    · rename_i same
      rw [same, found]
      simp
    · exact Iff.rfl
  · obtain ⟨g', hg', entryG⟩ := generators i g hg
    obtain ⟨k', hk', entryK⟩ := generators j k hk
    exact apart i j g' k' hg' hk' (entryG.trans (entry.trans entryK.symm))

theorem silence_keeps {s : State} {e : Fin 8} {r : AlarmRec} (found : s.alarm.records[e] = some r) :
    Keeps s (s.silence e r) :=
  setAlarm_recoverage_keeps (replaced_recordsOk found { r with sounding := false } rfl rfl fun _ g hg => ⟨g, hg, rfl⟩)

theorem restartGenerator_entry {a : Alarm} {e pattern : Fin 8} {i : Fin 4} {g : Generator}
    (h : (a.restartGenerator e pattern).generators[i] = some g) :
    ∃ g', a.generators[i] = some g' ∧ g'.entry = g.entry := by
  unfold Alarm.restartGenerator at h
  rw [mapTable_get, Option.map_eq_some_iff] at h
  obtain ⟨g', hg', rfl⟩ := h
  refine ⟨g', hg', ?_⟩
  split
  · rename_i own
    exact own.1
  · rfl

/-- A record replaced by one that is seen as it was. -/
theorem replaced_keeps {s : State} {e : Fin 8} {r r' : AlarmRec} {x : Alarm} (found : s.alarm.records[e] = some r)
    (records : x.records = put s.alarm.records e (some r')) (startOrder : x.startOrder = s.alarm.startOrder)
    (coverage : x.coverage = s.alarm.coverage)
    (generators : ∀ (i : Fin 4) (g : Generator), x.generators[i] = some g →
      ∃ g', s.alarm.generators[i] = some g' ∧ g'.entry = g.entry)
    (cls : r.sounding = true → r'.cls = r.cls ∧ r'.sounding = true) : Keeps s (s.setAlarm x) := by
  have get (f : Fin 8) : x.records[f] = if f = e then some r' else s.alarm.records[f] := by rw [records, put_get]
  refine setAlarm_keeps (alarmOk_inPlace startOrder coverage (fun f => ?_) (fun f q hq on => ?_) generators)
    (fun z => by rw [State.covered, State.setAlarm_alarm, coverage]; rfl) fun ok z under => ?_
  · rw [get]
    split
    · rename_i same
      rw [same, found]
      simp
    · exact Iff.rfl
  · rw [get]
    split
    · rename_i same
      rw [same, found] at hq
      cases hq
      exact ⟨r', rfl, (cls on).2⟩
    · exact ⟨q, hq, on⟩
  · obtain ⟨-, -, covers, -, -⟩ := ok
    have covering := covers z
    unfold State.underGeneral State.winner at under ⊢
    rw [State.setAlarm_alarm, coverage] at under
    revert under covering
    cases s.alarm.coverage[z] with
    | none => exact fun under _ => under
    | some f =>
      simp only [get]
      intro under covering
      revert under
      split
      · rename_i same
        subst same
        obtain ⟨q, hq, on⟩ := covering f rfl
        rw [found] at hq
        cases hq
        simp only [found, Option.map_some, Option.any_some, (cls on).1]
        exact id
      · exact id

theorem refresh_keeps {s : State} {e : Fin 8} {r : AlarmRec} (found : s.alarm.records[e] = some r) (cls : AlarmClass)
    (pattern : Fin 8) : Keeps s (s.refresh e r cls pattern) := by
  refine .ite (fun _ => ?_) fun same => ?_
  · exact setAlarm_recoverage_keeps (replaced_recordsOk found _ rfl rfl fun _ _ hg => restartGenerator_entry hg)
  · refine replaced_keeps found rfl rfl rfl (fun _ _ hg => restartGenerator_entry hg) fun on => ?_
    simp only [on, Bool.true_or, true_and, not_or, not_not] at same ⊢
    exact ⟨same.1.symm, trivial⟩

theorem startRemote_keeps (s : State) (origin : NodeAddr) (group : Fin 8) (cls : AlarmClass) (pattern : Fin 8) :
    Keeps s (s.startRemote origin group cls pattern) := by
  unfold State.startRemote
  simp only
  split
  · exact startRecord_keeps _ _ _
  · exact .ite (fun _ => (endRecord_keeps _ _ _).trans (startRecord_keeps _ _ _)) fun _ => .refl s
  · exact .refl s

theorem alertWordIn_keeps (s : State) (w : BitVec 26) : Keeps s (s.alertWordIn w) := by
  unfold State.alertWordIn
  simp only
  refine .ite (fun _ => ?_) fun _ => ?_
  · split
    · rename_i x found
      obtain ⟨e, -, hx⟩ := Option.bind_eq_some_iff.mp found
      obtain ⟨r, hr, rfl⟩ := Option.map_eq_some_iff.mp hx
      exact refresh_keeps hr _ _
    · exact startRemote_keeps _ _ _ _ _
  · split
    · exact endRecord_keeps _ _ _
    · exact .refl s

theorem putAlert_keeps (s : State) (w : BitVec 26) (free : Bool) : Keeps s (s.putAlert w free) := setRing_keeps rfl rfl

theorem alertWordArrival_keeps (w : BitVec 26) (s : State) : Keeps s (alertWordArrival w s) := by
  unfold alertWordArrival
  split
  · exact .refl s
  · exact putAlert_keeps _ _ _
  · refine .ite (fun _ => ?_) fun _ => putAlert_keeps _ _ _
    exact .ite (fun _ => (alertWordIn_keeps s w).trans (putAlert_keeps _ _ _)) fun _ =>
      (alertWordIn_keeps s w).trans (putAlert_keeps _ _ _)

/-! ### Contacts, timers and generators -/

theorem setContact_keeps (s : State) (k : Fin 4) (c : Contact) : Keeps s (s.setContact k c) :=
  setAlarm_seen_keeps (fun h => h) fun _ => rfl

theorem contactActivate_keeps (k : Fin 4) (s : State) : Keeps s (contactActivate k s) :=
  .ite (fun _ => (setContact_keeps _ _ _).trans (startRecord_keeps _ _ _)) fun _ => .refl s

theorem contactClear_keeps (k : Fin 4) (s : State) : Keeps s (contactClear k s) :=
  .ite (fun _ => (setContact_keeps _ _ _).trans (endRecord_keeps _ _ _)) fun _ => .refl s

theorem alarmTick_keeps (s : State) (levels : BitVec 4) : Keeps s (s.alarmTick levels) := by
  have records (e : Fin 8) : ((s.alarmTick levels).alarm.records)[e] =
      (s.alarm.records[e]).map (fun r => r.tick s.heard) := mapTable_get _ _ _
  refine setAlarm_seen_keeps (alarmOk_inPlace rfl rfl (fun e => ?_) (fun e r hr on => ?_) fun _ g hg => ⟨g, hg, rfl⟩)
    fun z => ?_
  · change (s.alarmTick levels).alarm.records[e] = none ↔ _
    rw [records, Option.map_eq_none_iff]
  · exact ⟨r.tick s.heard, (records e).trans (by rw [hr]; rfl), on⟩
  · change (s.alarm.coverage[z]).map (fun e => (e, ((s.alarmTick levels).alarm.records[e]).map (·.cls))) = _
    simp only [records, Option.map_map]
    rfl

theorem broadcastRefresh_keeps (e : Fin 8) (s : State) : Keeps s (broadcastRefresh e s) := by
  unfold broadcastRefresh
  split
  · rename_i r found
    refine .ite (fun _ => ?_) fun _ => .refl s
    have placed : Keeps s (s.setAlarm { s.alarm with
        records := put s.alarm.records e (some { r with broadcastTimer := 0 }) }) :=
      replaced_keeps found rfl rfl rfl (fun _ g hg => ⟨g, hg, rfl⟩) fun on => ⟨rfl, on⟩
    exact placed.trans (placeRecord_keeps _ _ _ _)
  · exact .refl s

theorem notConfirmed_keeps (e : Fin 8) (s : State) : Keeps s (notConfirmed e s) := by
  unfold notConfirmed
  split
  · exact .ite (fun _ => endRecord_keeps _ _ _) fun _ => .refl s
  · exact .refl s

/-- Generators changed in place with their entries. -/
theorem setGenerators_keeps {s : State} {x : Vector (Option Generator) 4}
    (h : ∀ (i : Fin 4) (g : Generator), x[i] = some g → ∃ g', s.alarm.generators[i] = some g' ∧ g'.entry = g.entry) :
    Keeps s (s.setAlarm { s.alarm with generators := x }) :=
  setAlarm_seen_keeps (alarmOk_inPlace rfl rfl (fun _ => Iff.rfl) (fun _ r hr on => ⟨r, hr, on⟩) h) fun _ => rfl

theorem generatorAdvance_entry (g : Generator) (p : PatternStep) : (g.advance p).entry = g.entry := by
  unfold Generator.advance
  split <;> rfl

theorem advanceAll_keeps (s : State) : Keeps s (s.setAlarm s.alarm.advanceAll) :=
  setGenerators_keeps fun i g hg => by
    rw [mapTable_get] at hg
    obtain ⟨g', hg', rfl⟩ := Option.map_eq_some_iff.mp hg
    exact ⟨g', hg', (generatorAdvance_entry _ _).symm⟩

theorem generatorStepEnd_keeps (i : Fin 4) (s : State) : Keeps s (generatorStepEnd i s) := by
  unfold generatorStepEnd
  split
  · rename_i g found
    refine .ite (fun _ => setGenerators_keeps fun j k hk => ?_) fun _ => .refl s
    rw [put_get] at hk
    split at hk
    · cases hk
      exact ⟨g, ‹j = i› ▸ found, rfl⟩
    · exact ⟨k, hk, rfl⟩
  · exact .refl s

/-! ### Requests -/

theorem setPatternStep_answered (ws : List Word16) (s : State) : Answered s 0 (Keeps s) (setPatternStep ws s) := by
  unfold setPatternStep
  split
  · split
    · refine .ite (fun _ => .refusal rfl) fun _ => .ite (fun _ => .refusal rfl) fun _ => .ok ?_
      exact setAlarm_seen_keeps (fun h => h) fun _ => rfl
    · exact .refusal rfl
  · exact .refusal rfl

theorem setContact_answered (ws : List Word16) (s : State) : Answered s 0 (Keeps s) (setContact ws s) := by
  unfold setContact
  split
  · split
    · exact .ite (fun _ => .refusal rfl) fun _ => .ok (setContact_keeps _ _ _)
    · exact .refusal rfl
  · exact .refusal rfl

theorem setGroupOf_keeps (s : State) (g : Fin 8) (zs : ZoneSet) : Keeps s (s.setGroupOf g zs) := by
  refine .ite (fun _ => setAlarm_recoverage_keeps fun ok => ?_) fun _ => setAlarm_seen_keeps (fun h => h) fun _ => rfl
  obtain ⟨nodup, order, -, -, apart⟩ := ok
  exact ⟨nodup, order, apart⟩

theorem setGroup_answered (ws : List Word16) (s : State) : Answered s 0 (Keeps s) (setGroup ws s) := by
  unfold setGroup
  split
  · split
    · exact .ite (fun _ => .refusal rfl) fun _ => .ok (setGroupOf_keeps _ _ _)
    · exact .refusal rfl
  · exact .refusal rfl

theorem alarmStart_answered (ws : List Word16) (s : State) : Answered s 0 (Keeps s) (alarmStart ws s) := by
  unfold alarmStart
  split
  · split
    · refine .ite (fun _ => .refusal rfl) fun _ => ?_
      split
      · exact .refusal rfl
      · exact .ok (startRecord_keeps _ _ _)
    · exact .refusal rfl
  · exact .refusal rfl

theorem alarmStop_answered (ws : List Word16) (s : State) : Answered s 0 (Keeps s) (alarmStop ws s) := by
  unfold alarmStop
  split
  · split
    · exact .refusal rfl
    · split
      · exact .refusal rfl
      · exact .ok (endRecord_keeps _ _ _)
  · exact .refusal rfl

theorem silenceAlarm_answered (ws : List Word16) (s : State) : Answered s 0 (Keeps s) (silenceAlarm ws s) := by
  unfold silenceAlarm
  split
  · split
    · exact .refusal rfl
    · split
      · exact .refusal rfl
      · exact .ite (fun _ => .refusal rfl) fun _ => .ite (fun _ => .ok (.refl s)) fun _ => .ok (silence_keeps ‹_›)
  · exact .refusal rfl

end Sys2Proof.Machine
end

section
/-! The ring interface, the clip engine, scene control, the feed pairs, the line supervisor, the trackers and the local
ports keep the invariants. -/

namespace Sys2Proof.Machine

/-! ### The ring interface -/

theorem removeInsert_keeps (s : State) (slot : Fin 64) : Keeps s (s.removeInsert slot) := setRing_filter_keeps _ rfl rfl

theorem setInsert_answered (ws : List Word16) (s : State) : Answered s 0 (Keeps s) (setInsert ws s) := by
  unfold setInsert
  split
  · split
    · exact .ite (fun _ => .refusal rfl) fun named => .ite (fun _ => .refusal rfl) fun _ =>
        .ok (addInsert_keeps _ (Bool.eq_false_iff.mpr named))
    · exact .refusal rfl
  · exact .refusal rfl

theorem clearInsert_answered (ws : List Word16) (s : State) : Answered s 0 (Keeps s) (clearInsert ws s) := by
  unfold clearInsert
  split
  · split
    · exact .ite (fun _ => .refusal rfl) fun _ => .ite (fun _ => .refusal rfl) fun _ => .ok (removeInsert_keeps _ _)
    · exact .refusal rfl
  · exact .refusal rfl

/-- Inserts changed in place with their slots. -/
theorem setRing_map_keeps {s : State} {r : Ring} (f : Insert → Insert) (h : r.inserts = s.ring.inserts.map f)
    (receiver : r.receiver = s.ring.receiver) (slot : ∀ i, (f i).slot = i.slot) : Keeps s (s.setRing r) :=
  setRing_keeps (by rw [h, List.map_map]; exact List.map_congr_left fun i _ => slot i) receiver

theorem slotClash_keeps (slot : Fin 64) (s : State) : Keeps s (slotClash slot s) := by
  unfold slotClash
  split
  · refine .ite (fun _ => ?_) fun _ => .refl s
    let reported := s.setRing { s.ring with
      inserts := s.ring.inserts.map (fun j => if j.slot = slot then { j with reported := true } else j) }
    have keeps : Keeps s reported := setRing_map_keeps _ rfl rfl fun i => by split <;> rfl
    exact keeps.trans (post_keeps _ _ _ _)
  · exact .refl s

theorem countClashes_keeps (s : State) (slots : Vector RawSample 64) : Keeps s (s.countClashes slots) :=
  setRing_map_keeps _ rfl rfl fun i => by
    split
    · split <;> rfl
    · rfl

theorem alertSend_keeps (s : State) : Keeps s (alertSend s) := by
  refine .ite (fun _ => ?_) fun _ => .refl s
  split
  · rename_i w rest _
    have sent : Keeps s (s.setRing { s.ring with sendList := rest }) := setRing_keeps rfl rfl
    exact sent.trans (putAlert_keeps _ _ _)
  · exact .refl s

theorem sendCycle_keeps (s : State) (k : Computation) : Keeps s (s.sendCycle k) := setRing_keeps rfl rfl

theorem countGenerated_keeps (s : State) : Keeps s s.countGenerated := .ite (fun _ => setRing_keeps rfl rfl) fun _ => .refl s

theorem nextForward_keeps (s : State) : Keeps s s.nextForward := setRing_keeps rfl rfl

theorem readTaps_keeps (s : State) : Keeps s s.readTaps := setRing_keeps rfl rfl

/-! ### The clip engine -/

theorem setEntry_keeps (s : State) (clip : Fin 256) (e : Option ClipEntry) : Keeps s (s.setEntry clip e) := setClips_keeps rfl

theorem discardWrite_keeps (s : State) (clip : Fin 256) : Keeps s (s.discardWrite clip) := setClips_keeps rfl

theorem define_keeps (s : State) (clip : Fin 256) (start len : Nat) (honour : Bool) (trim : Nat) :
    Keeps s (s.define clip start len honour trim) := by
  unfold State.define
  split
  · exact .ite (fun _ => setEntry_keeps _ _ _) fun _ => (setEntry_keeps _ _ _).trans (discardWrite_keeps _ _)
  · exact (setEntry_keeps _ _ _).trans (discardWrite_keeps _ _)

theorem defineClip_answered (ws : List Word16) (s : State) : Answered s 0 (Keeps s) (defineClip ws s) := by
  unfold defineClip
  split
  · simp only
    split
    · exact .ite (fun _ => .refusal rfl) fun _ => .ite (fun _ => .refusal rfl) fun _ => .ite (fun _ => .refusal rfl) fun _ =>
        .ite (fun _ => .refusal rfl) fun _ => .ok (define_keeps _ _ _ _ _ _)
    · exact .refusal rfl
  · exact .refusal rfl

theorem deleteClip_answered (ws : List Word16) (s : State) : Answered s 0 (Keeps s) (deleteClip ws s) := by
  unfold deleteClip
  split
  · split
    · exact .refusal rfl
    · exact .ite (fun _ => .refusal rfl) fun _ => .ite (fun _ => .refusal rfl) fun _ => .ite (fun _ => .refusal rfl) fun _ =>
        .ok ((setEntry_keeps _ _ _).trans (discardWrite_keeps _ _))
  · exact .refusal rfl

theorem bufferWords_keeps (s : State) (clip : Fin 256) (e : ClipEntry) (offset : Nat) (data : List ClipWord) :
    Keeps s (s.bufferWords clip e offset data) := setClips_keeps rfl

theorem writeClip_answered (ws : List Word16) (s : State) : Answered s 0 (Keeps s) (writeClip ws s) := by
  unfold writeClip
  split
  · refine .ite (fun _ => .refusal rfl) fun _ => ?_
    refine .ite (fun _ => .refusal rfl) fun _ => ?_
    split
    · exact .refusal rfl
    · exact .ite (fun _ => .refusal rfl) fun _ => .ite (fun _ => .refusal rfl) fun _ => .ite (fun _ => .refusal rfl) fun _ =>
        .ite (fun _ => .refusal rfl) fun _ => .ok (bufferWords_keeps _ _ _ _ _)
  · exact .refusal rfl

theorem readClip_answered (ws : List Word16) (s : State) : Answered s 8 (Keeps s) (readClip ws s) := by
  unfold readClip
  split
  · split
    · exact .refusal rfl
    · split
      · exact .refusal rfl
      · exact .report rfl (.refl s)
  · exact .refusal rfl

theorem startCapture_keeps (s : State) (clip : Fin 256) (e : ClipEntry) (slot : Fin 64) (onSound : Bool) :
    Keeps s (s.startCapture clip e slot onSound) := setClips_keeps rfl

theorem captureClip_answered (ws : List Word16) (s : State) : Answered s 0 (Keeps s) (captureClip ws s) := by
  unfold captureClip
  split
  · split
    · split
      · exact .refusal rfl
      · exact .ite (fun _ => .refusal rfl) fun _ => .ite (fun _ => .refusal rfl) fun _ =>
          .taken _ .accepted [] (.inr rfl) rfl (startCapture_keeps _ _ _ _ _)
    · exact .refusal rfl
  · exact .refusal rfl

theorem captureSample_keeps (s : State) : Keeps s s.captureSample := setClips_keeps rfl

theorem captureFull_keeps (s : State) : Keeps s (captureFull s) := .ite (fun _ => setClips_keeps rfl) fun _ => .refl s

theorem captureEnd_keeps (s : State) : Keeps s (captureEnd s) := .ite (fun _ => setClips_keeps rfl) fun _ => .refl s

theorem captureDone_keeps (s : State) : Keeps s (captureDone s) := by
  refine .ite (fun _ => ?_) fun _ => .refl s
  have idle (u : State) : Keeps u (u.setClips { u.clips with capture := Capture.idle }) := setClips_keeps rfl
  exact ((setEntry_keeps s _ _).trans (idle _)).trans (post_keeps _ _ _ _)

theorem dropCapture_keeps (s : State) : Keeps s s.dropCapture := setClips_keeps rfl

theorem captureRingLost_keeps (s : State) : Keeps s s.captureRingLost := by
  unfold State.captureRingLost
  split
  · exact (dropCapture_keeps s).trans (post_keeps _ _ _ _)
  · exact (dropCapture_keeps s).trans (post_keeps _ _ _ _)
  · exact .refl s

theorem cancelCapture_answered (ws : List Word16) (s : State) : Answered s 0 (Keeps s) (cancelCapture ws s) := by
  unfold cancelCapture
  split
  · exact .ite (fun _ => .refusal rfl) fun _ => .ok ((dropCapture_keeps s).trans (post_keeps _ _ _ _))
  · exact .refusal rfl

theorem idlePlayer_keeps (s : State) (p : Fin 4) : Keeps s (s.idlePlayer p) :=
  .ite (fun _ => (setPlayer_keeps _ _ _).trans (endActivation_keeps _ _)) fun _ => .refl s

theorem burstGrant_keeps (s : State) : Keeps s (burstGrant s) := setClips_keeps (grant_memory s.clips)

theorem burstDone_keeps (s : State) : Keeps s (burstDone s) := by
  have memory : s.memoryOk → (burstDone s).memoryOk := burstDone_wf s
  revert memory
  unfold burstDone
  split
  · split
    · exact fun memory => { Keeps.refl s with memory := memory }
    · exact fun _ => .refl s
  · exact fun _ => .refl s

theorem burstTick_keeps (s : State) : Keeps s s.burstTick := setClips_keeps rfl

theorem playerPrimed_keeps (p : Fin 4) (s : State) : Keeps s (playerPrimed p s) :=
  .ite (fun _ => setPlayer_keeps _ _ _) fun _ => .refl s

theorem playerStep_keeps (s : State) (p : Fin 4) : Keeps s (s.playerStep p) := by
  have underrun : Keeps s
      (if s.clips.underruns p && !(s.clips.players[p]).underrun then
        (s.setPlayer p { s.clips.players[p] with underrun := true }).post .underrun
          ((s.playerPage p).map (·.id) |>.getD 0) (BitVec.ofNat 4 p.val)
      else s) :=
    .ite (fun _ => (setPlayer_keeps _ _ _).trans (post_keeps _ _ _ _)) fun _ => .refl s
  exact .ite (fun _ => underrun.trans (setPlayer_keeps _ _ _)) fun _ => underrun

/-! ### Pages -/

theorem newPage_enqueue_keeps {s : State} {p : Page} (fresh : ¬ (s.page p.id).isSome = true)
    (room : ¬ 32 ≤ s.pages.queue.length) (granted : p.granted = 0) (joining : p.joining = 0) (player : p.player = none) :
    Keeps s (s.enqueue p) :=
  enqueue_keeps (by omega) (by simpa using fresh) granted joining player

theorem queuePage_answered (ws : List Word16) (s : State) : Answered s 0 (Keeps s) (queuePage ws s) := by
  unfold queuePage
  split
  · simp only
    split
    · exact .ite (fun _ => .refusal rfl) fun _ => .ite (fun _ => .refusal rfl) fun fresh => .ite (fun _ => .refusal rfl) fun room =>
        .ite (fun _ => .refusal rfl) fun _ => .ok (newPage_enqueue_keeps fresh room rfl rfl rfl)
    · exact .refusal rfl
  · exact .refusal rfl

theorem cancelPage_answered (ws : List Word16) (s : State) : Answered s 0 (Keeps s) (cancelPage ws s) := by
  unfold cancelPage
  split
  · exact .ite (fun _ => .refusal rfl) fun _ => .ite (fun _ => .refusal rfl) fun _ => .ok (endPage_keeps _ _ _)
  · exact .refusal rfl

theorem readPage_answered (ws : List Word16) (s : State) : Answered s 8 (Keeps s) (readPage ws s) := by
  unfold readPage
  split
  · refine .ite (fun _ => .refusal rfl) fun _ => ?_
    split
    · exact .refusal rfl
    · exact .report rfl (.refl s)
  · exact .refusal rfl

/-! ### Route banks and zone fields -/

theorem bank_setBank (m : Mix) (id id' : BankId) (b : Bank) :
    (m.setBank id b).bank id' = if id' = id then b else m.bank id' := by
  cases id <;> cases id' <;> rfl

/-- A bank written with the modes it had. -/
theorem setBank_keeps {s : State} {id : BankId} {b : Bank}
    (h : id = s.scene.active → ∀ z : Fin 24, (b.fields[z]).mode = (s.zoneFields z).mode) : Keeps s (s.setBank id b) :=
  setMix_keeps fun z => by
    rw [bank_setBank]
    split
    · rename_i active
      exact h active.symm z
    · rfl

/-- A bank written with the fields it had. -/
theorem setBank_fields_keeps {s : State} {id : BankId} {b : Bank} (h : b.fields = (s.mix.bank id).fields) :
    Keeps s (s.setBank id b) :=
  setBank_keeps fun active z => by
    subst active
    rw [h]
    rfl

theorem load_fields (b : Bank) (x : Route) : (b.load x).fields = b.fields := by
  unfold Bank.load
  split <;> rfl

theorem loadRoute_answered (ws : List Word16) (s : State) : Answered s 0 (Keeps s) (loadRoute ws s) := by
  unfold loadRoute
  split
  · split
    · exact .ite (fun _ => .refusal rfl) fun _ => .ite (fun _ => .refusal rfl) fun _ => .ok (setBank_fields_keeps (load_fields _ _))
    · exact .refusal rfl
  · exact .refusal rfl

theorem clearRoute_answered (ws : List Word16) (s : State) : Answered s 0 (Keeps s) (clearRoute ws s) := by
  unfold clearRoute
  split
  · split
    · exact .ite (fun _ => .refusal rfl) fun _ => .ite (fun _ => .refusal rfl) fun _ => .ok (setBank_fields_keeps rfl)
    · exact .refusal rfl
  · exact .refusal rfl

/-- A state that is handed to the page scheduler need not have its zones free. -/
theorem Keeps.handScheduler {s u : State} (memory : s.memoryOk → u.memoryOk) (control : s.controlOk → u.controlOk)
    (trackers : s.trackersOk → u.trackersOk) (inserts : s.insertsOk → u.insertsOk) (alarm : s.alarmOk → u.alarmOk)
    (pages : s.pagesOk → u.pagesOk) (calls : s.callsOk → u.callsOk) (apart : s.callsOk → s.callsApart → u.callsApart)
    (hold : s.callsOk → s.alarmOk → s.holdOk → u.holdOk) (settings : u.ctl.settings = s.ctl.settings)
    (incoming : u.ctl.incoming = s.ctl.incoming) (receiver : u.ring.receiver = s.ring.receiver) :
    Keeps s u.handScheduler :=
  have handed := handScheduler_keeps u
  { memory := handed.memory ∘ memory, control := handed.control ∘ control, trackers := handed.trackers ∘ trackers
    inserts := handed.inserts ∘ inserts, alarm := handed.alarm ∘ alarm, pages := handed.pages ∘ pages
    zones := fun ok _ => handScheduler_zonesFree (pages ok)
    calls := handed.calls ∘ calls
    apart := fun ok h => handed.apart (calls ok) (apart ok h)
    hold := fun ok a h => handed.hold (calls ok) (alarm a) (hold ok a h)
    settings := handed.settings.trans settings, incoming := handed.incoming.trans incoming
    receiver := handed.receiver.trans receiver }

theorem writeZone_keeps (s : State) (z : Fin 24) (f : ZoneBank) : Keeps s (s.writeZone z f) := by
  refine .ite (fun _ => .handScheduler id id id id id id id (fun _ => id) (fun _ _ => id) rfl rfl rfl) fun same => ?_
  refine setBank_keeps fun active y => ?_
  have direct : s.writeMode = .direct := by
    unfold State.writtenBank at active
    revert active
    cases s.writeMode with
    | direct => exact fun _ => rfl
    | staged => cases s.scene.active <;> exact fun h => by cases h
  have fields : (s.mix.bank s.writtenBank).fields[y] = s.zoneFields y := by rw [active]; rfl
  have mode : ((s.mix.bank s.writtenBank).fields[z]).mode = f.mode := by
    by_contra ne
    exact same ⟨direct, ne⟩
  rw [put_get]
  split
  · rename_i written
    rw [← fields, written]
    exact mode.symm
  · rw [fields]

theorem setZone_answered (ws : List Word16) (s : State) : Answered s 0 (Keeps s) (setZone ws s) := by
  unfold setZone
  split
  · split
    · exact .ite (fun _ => .refusal rfl) fun _ => .ok (writeZone_keeps _ _ _)
    · exact .refusal rfl
  · exact .refusal rfl

/-- The mix engine written with the banks it had. -/
theorem setMix_banks_keeps {s : State} {x : Mix} (a : x.bankA = s.mix.bankA) (b : x.bankB = s.mix.bankB) :
    Keeps s (s.setMix x) :=
  setMix_keeps fun z => by
    have bank (id : BankId) : x.bank id = s.mix.bank id := by
      cases id
      · exact a
      · exact b
    rw [bank]
    rfl

theorem setZoneLocal_answered (ws : List Word16) (s : State) : Answered s 0 (Keeps s) (setZoneLocal ws s) := by
  unfold setZoneLocal
  split
  · split
    · exact .ok (setMix_banks_keeps rfl rfl)
    · exact .refusal rfl
  · exact .refusal rfl

theorem readZone_answered (ws : List Word16) (s : State) : Answered s 6 (Keeps s) (readZone ws s) := by
  unfold readZone
  split
  · split
    · exact .report rfl (.refl s)
    · exact .refusal rfl
  · exact .refusal rfl

theorem duckAll_keeps (s : State) : Keeps s s.duckAll := setMix_banks_keeps rfl rfl

/-! ### Scene control -/

/-- Scene control written with its active bank and the zones it has handed over. -/
theorem setScene_same_keeps {s : State} {x : Scene} (active : x.active = s.scene.active) (handed : x.handed = s.scene.handed) :
    Keeps s (s.setScene x) :=
  setScene_keeps fun z pending => ⟨handed ▸ pending, by rw [active]; rfl⟩

theorem copyBank_answered (ws : List Word16) (s : State) : Answered s 0 (Keeps s) (copyBank ws s) := by
  unfold copyBank
  split
  · refine .ite (fun _ => .ok (setBank_keeps fun active => ?_)) fun _ => .refusal rfl
    revert active
    cases s.scene.active <;> exact fun h => by cases h
  · exact .refusal rfl

theorem beginTake_keeps (s : State) (length : Nat) (target : Option (BitVec 16)) : Keeps s (s.beginTake length target) :=
  setScene_same_keeps rfl rfl

theorem takeOwner_answered (ws : List Word16) (s : State) : Answered s 0 (Keeps s) (takeOwner ws s) := by
  have answer (length : Word16) (target : Option (BitVec 16)) : Answered s 0 (Keeps s)
      (if s.scene.state = .idle then
        { state := s.beginTake length.toNat target, status := .accepted, reply := [] }
      else .refuse .busy s) :=
    .ite (fun _ => .taken _ .accepted [] (.inr rfl) rfl (beginTake_keeps _ _ _)) fun _ => .refusal rfl
  unfold takeOwner
  simp only
  split
  · exact answer _ _
  · exact answer _ _
  · exact .refusal rfl

theorem compareTake_keeps (s : State) (number : BitVec 16) : Keeps s (s.compareTake number) :=
  .ite (fun _ => setScene_same_keeps rfl rfl) fun _ => .refl s

theorem takeRingLost_keeps (s : State) : Keeps s s.takeRingLost :=
  .ite (fun _ => setScene_same_keeps rfl rfl) fun _ => .refl s

theorem completeTake_keeps (s : State) : Keeps s s.completeTake := by
  have idle : Keeps s (s.setScene { s.scene with
      state := .idle, target := none, start := .no, lastDone := false, step := 0 }) := setScene_same_keeps rfl rfl
  exact idle.trans (post_keeps _ _ _ _)

/-- The banks swap, and the zones whose modes differ are to be handed over. -/
theorem takeStart_keeps (s : State) : Keeps s (takeStart s) := by
  refine .ite (fun _ => ?_) fun _ => .refl s
  have swapped : Keeps s (s.setScene { s.scene with
      active := s.scene.active.other, state := .crossfading, step := 1, start := .no
      handed := s.scene.handed ||| s.changedModes }) :=
    setScene_keeps fun z pending => by
      rw [BitVec.getLsbD_or, Bool.or_eq_false_iff, State.changedModes, zonesWhere_getLsbD] at pending
      obtain ⟨old, same⟩ := pending
      rw [bne_eq_false_iff_eq] at same
      exact ⟨old, same.symm⟩
  exact .ite (fun _ => swapped.trans (completeTake_keeps _)) fun _ => swapped

theorem actOnHanded_keeps (s : State) : Keeps s s.actOnHanded :=
  .ite (fun _ => .refl s) fun _ => .handScheduler id id id id id id id (fun _ => id) (fun _ _ => id) rfl rfl rfl

theorem advanceScene_keeps (s : State) : Keeps s (s.setScene s.scene.advance) := by
  refine setScene_same_keeps ?_ ?_ <;>
  · unfold Scene.advance
    split
    · split <;> rfl
    · split <;> rfl
    · rfl

theorem takeDone_keeps (s : State) : Keeps s (takeDone s) := .ite (fun _ => completeTake_keeps s) fun _ => .refl s

/-! ### Feed pairs -/

theorem changeFeed_keeps (s : State) (f : Fin 4) (target : FeedState) : Keeps s (s.changeFeed f target) :=
  (setFeeds_keeps _ _).trans (post_keeps _ _ _ _)

theorem feedRecovery_keeps (s : State) (f : Fin 4) : Keeps s (s.feedRecovery f) :=
  .ite (fun _ => .ite (fun _ => changeFeed_keeps _ _ _) fun _ => .ite (fun _ => changeFeed_keeps _ _ _) fun _ => .refl s)
    fun _ => .refl s

theorem feedChangeover_keeps (f : Fin 4) (s : State) : Keeps s (feedChangeover f s) := by
  unfold feedChangeover
  split
  · exact changeFeed_keeps _ _ _
  · exact .refl s

theorem feedBothLost_keeps (f : Fin 4) (s : State) : Keeps s (feedBothLost f s) :=
  .ite (fun _ => changeFeed_keeps _ _ _) fun _ => .refl s

theorem feedAutoRevert_keeps (f : Fin 4) (s : State) : Keeps s (feedAutoRevert f s) :=
  .ite (fun _ => changeFeed_keeps _ _ _) fun _ => .refl s

theorem mismatchBlockEnd_keeps (f : Fin 4) (s : State) : Keeps s (mismatchBlockEnd f s) := by
  refine .ite (fun _ => ?_) fun _ => .refl s
  exact .ite (fun _ => (setFeeds_keeps _ _).trans (post_keeps _ _ _ _)) fun _ => setFeeds_keeps _ _

theorem setFeed_answered (ws : List Word16) (s : State) : Answered s 0 (Keeps s) (setFeed ws s) := by
  unfold setFeed
  split
  · split
    · exact .ite (fun _ => .refusal rfl) fun _ => .ok (setFeeds_keeps _ _)
    · exact .refusal rfl
  · exact .refusal rfl

theorem revertFeed_answered (ws : List Word16) (s : State) : Answered s 0 (Keeps s) (revertFeed ws s) := by
  unfold revertFeed
  split
  · split
    · exact .refusal rfl
    · exact .ite (fun _ => .ok (.refl s)) fun _ => .ite (fun _ => .refusal rfl) fun _ => .ok (changeFeed_keeps _ _ _)
  · exact .refusal rfl

/-! ### The line supervisor -/

theorem postLine_keeps (s : State) (c : Fin 32) (e : Option LineEvent) : Keeps s (s.postLine c e) := by
  unfold State.postLine
  split
  · exact .refl s
  · exact post_keeps _ _ _ _
  · exact post_keeps _ _ _ _

theorem scanChoose_keeps (s : State) : Keeps s s.scanChoose := by
  unfold State.scanChoose
  split
  · exact setLines_keeps _ _
  · exact setLines_keeps _ _
  · exact .refl s

theorem classifyStep_keeps (s : State) (c : Fin 32) : Keeps s (s.classifyStep c) :=
  .ite (fun _ => .refl s) fun _ => (setLines_keeps _ _).trans (postLine_keeps _ _ _)

theorem scanStepEnd_keeps (s : State) : Keeps s (scanStepEnd s) := by
  unfold scanStepEnd
  split
  · exact .ite (fun _ => (classifyStep_keeps _ _).trans (setLines_keeps _ _)) fun _ => .refl s
  · exact .refl s

theorem scanRestEnd_keeps (s : State) : Keeps s (scanRestEnd s) := by
  unfold scanRestEnd
  split
  · exact .ite (fun _ => setLines_keeps _ _) fun _ => .refl s
  · exact .refl s

theorem setScan_answered (ws : List Word16) (s : State) : Answered s 0 (Keeps s) (setScan ws s) := by
  unfold setScan
  split
  · split
    · exact .refusal rfl
    · refine .ite (fun _ => .refusal rfl) fun _ => ?_
      simp only
      split
      · exact .ok (setLines_keeps _ _)
      · exact .ok (setLines_keeps _ _)
  · exact .refusal rfl

theorem setWindowOf_keeps (s : State) (c : Fin 32) (w : Window) : Keeps s (s.setWindowOf c w) :=
  .ite (fun _ => setLines_keeps _ _) fun _ => (setLines_keeps _ _).trans (postLine_keeps _ _ _)

theorem setWindow_answered (ws : List Word16) (s : State) : Answered s 0 (Keeps s) (setWindow ws s) := by
  unfold setWindow
  split
  · split
    · exact .ite (fun _ => .refusal rfl) fun _ => .ok (setWindowOf_keeps _ _ _)
    · exact .refusal rfl
  · exact .refusal rfl

theorem readLines_answered (ws : List Word16) (s : State) : Answered s 16 (Keeps s) (readLines ws s) := by
  unfold readLines
  split
  · refine .report ?_ (.refl s)
    rw [List.length_map]
    rfl
  · exact .refusal rfl

/-! ### The ambient tracker -/

theorem restart_inRange {t : ZoneTracker} (h : t.inRange) : t.restart.inRange := h

/-- One tracker replaced by one in its range. -/
theorem putTracker_keeps {s : State} (z : Fin 24) {t : ZoneTracker} (h : (s.trackers[z]).inRange → t.inRange) :
    Keeps s (s.setTrackers (put s.trackers z t)) :=
  setTrackers_keeps fun y => by
    rw [put_get]
    split
    · rename_i same
      rw [same]
      exact h
    · exact id

theorem mapTrackers_keeps {s : State} {f : Fin 24 → ZoneTracker → ZoneTracker} (h : ∀ z t, t.inRange → (f z t).inRange) :
    Keeps s (s.setTrackers (mapTable f s.trackers)) :=
  setTrackers_keeps fun z => by
    rw [mapTable_get]
    exact h z _

theorem senseChanged_keeps (s : State) (z : Fin 24) : Keeps s (s.senseChanged z) := putTracker_keeps z restart_inRange

theorem settle_inRange {t : ZoneTracker} (h : t.inRange) {kdes : Nat} (low : t.settings.kmin ≤ kdes)
    (high : kdes ≤ t.settings.kmax) : (t.settle kdes).inRange := by
  obtain ⟨lowK, highK, rest⟩ := h
  unfold ZoneTracker.settle
  split_ifs
  · exact ⟨by simp only; omega, by simp only; omega, rest⟩
  · exact ⟨lowK, highK, rest⟩
  · exact ⟨by simp only; omega, by simp only; omega, rest⟩
  · exact ⟨lowK, highK, rest⟩
  · exact ⟨lowK, highK, rest⟩

theorem blockEnd_inRange {t : ZoneTracker} (h : t.inRange) (in0 in1 : Bool) : (t.blockEnd in0 in1).inRange := by
  have bounds : t.settings.kmin ≤ (t.evaluate in0 in1).kdes ∧ (t.evaluate in0 in1).kdes ≤ t.settings.kmax := by
    obtain ⟨low, high, -⟩ := h
    exact clampTo_mem _ _ _ (low.trans high)
  unfold ZoneTracker.blockEnd
  split_ifs
  · exact h
  · exact h
  · exact settle_inRange h bounds.1 bounds.2

theorem trackerBlockEnd_keeps (z : Fin 24) (s : State) : Keeps s (trackerBlockEnd z s) :=
  .ite (fun _ => putTracker_keeps z fun h => blockEnd_inRange h _ _) fun _ => .refl s

theorem glideAll_keeps (s : State) : Keeps s s.glideAll :=
  mapTrackers_keeps fun _ t ⟨low, high, top, seedLow, seedHigh, ceLow, ceHigh⟩ => by
    obtain ⟨lower, upper, -, -⟩ := glide_between t.ce (Config.compensation t.k)
    obtain ⟨factorLow, factorHigh⟩ := compensation_range t.k
    exact ⟨low, high, top, seedLow, seedHigh, by simp only; omega, by simp only; omega⟩

theorem measure_inRange {t : ZoneTracker} (h : t.inRange) (samples : Vector Int 32) (in0 in1 : Option (Fin 32))
    (freeze : Bool) : (t.measure samples in0 in1 freeze).inRange := by
  unfold ZoneTracker.measure
  split
  · exact h
  · exact h

theorem measureAll_keeps (s : State) : Keeps s s.measureAll := mapTrackers_keeps fun _ _ h => measure_inRange h _ _ _ _

theorem reset_inRange {t : ZoneTracker} (h : t.inRange) : t.reset.inRange := by
  obtain ⟨-, -, top, seedLow, seedHigh, ce⟩ := h
  exact ⟨seedLow, seedHigh, top, seedLow, seedHigh, ce⟩

theorem trackersReset_keeps (s : State) : Keeps s s.trackersReset := mapTrackers_keeps fun _ _ h => reset_inRange h

theorem configure_inRange {t : ZoneTracker} (h : t.inRange) (p q slope kmin kmax rise fall seed : Nat) :
    (t.configure (trackerSettings p q slope kmin kmax rise fall seed)).inRange := by
  obtain ⟨-, -, -, -, -, ce⟩ := h
  have order : min (min 8 kmax) (min 8 kmin) ≤ min 8 kmax := Nat.min_le_left _ _
  have step := clampTo_mem _ _ t.k order
  have seeded := clampTo_mem _ _ seed order
  exact ⟨step.1, step.2, Nat.min_le_left _ _, seeded.1, seeded.2, ce⟩

theorem setTracker_answered (ws : List Word16) (s : State) : Answered s 0 (Keeps s) (setTracker ws s) := by
  unfold setTracker
  split
  · split
    · exact .refusal rfl
    · exact .ite (fun _ => .refusal rfl) fun _ => .ok (putTracker_keeps _ fun h => configure_inRange h _ _ _ _ _ _ _ _)
  · exact .refusal rfl

theorem resetTracker_answered (ws : List Word16) (s : State) : Answered s 0 (Keeps s) (resetTracker ws s) := by
  unfold resetTracker
  split
  · split
    · exact .refusal rfl
    · exact .ok (putTracker_keeps _ reset_inRange)
  · exact .refusal rfl

theorem readTracker_answered (ws : List Word16) (s : State) : Answered s 4 (Keeps s) (readTracker ws s) := by
  unfold readTracker
  split
  · split
    · exact .refusal rfl
    · exact .report rfl (.refl s)
  · exact .refusal rfl

/-! ### The local ports -/

theorem setPort_answered (ws : List Word16) (s : State) : Answered s 0 (Keeps s) (setPort ws s) := by
  unfold setPort
  split
  · split
    · exact .ok (setPorts_keeps _ _)
    · exact .refusal rfl
  · exact .refusal rfl

theorem setInput_answered (ws : List Word16) (s : State) : Answered s 0 (Keeps s) (setInput ws s) := by
  unfold setInput
  split
  · split
    · exact .ite (fun _ => .refusal rfl) fun _ => .ok ((setPorts_keeps _ _).trans (.foldl senseChanged_keeps _ _))
    · exact .refusal rfl
  · exact .refusal rfl

theorem setChannel_answered (ws : List Word16) (s : State) : Answered s 0 (Keeps s) (setChannel ws s) := by
  unfold setChannel
  split
  · split
    · exact .ite (fun _ => .refusal rfl) fun _ => .ok (setPorts_keeps _ _)
    · exact .refusal rfl
  · exact .refusal rfl

theorem takeInputs_keeps (s : State) (frame : Vector RawSample 32) : Keeps s (s.takeInputs frame) := setPorts_keeps _ _

theorem sendFrame_keeps (s : State) (k : Computation) : Keeps s (s.sendFrame k) := setPorts_keeps _ _

end Sys2Proof.Machine
end

section
/-! The control interface, the cycle period and every command keep the invariants; the reset state meets them. -/

namespace Sys2Proof.Machine

/-! ### Control words -/

theorem paramWord_keeps (address : NodeAddr) (data : Word16) (s : State) : Keeps s (paramWord address data s) := by
  refine .ite (fun _ => ?_) fun _ => passControl_keeps _ _
  refine .ite (fun _ => putControl_keeps _ _) fun _ => ?_
  exact .ite (fun _ => (putControl_keeps s _).trans (appendBuffer_keeps _ _)) fun _ => putControl_keeps s _

theorem echoWord_keeps (address : NodeAddr) (payload : BitVec 16) (s : State) : Keeps s (echoWord address payload s) :=
  .ite (fun _ => (putControl_keeps _ _).trans (clearBuffer_keeps _)) fun _ => passControl_keeps _ _

theorem faultWordIn_keeps (address : NodeAddr) (payload : BitVec 16) (s : State) : Keeps s (faultWordIn address payload s) := by
  refine .ite (fun _ => ?_) fun _ => passControl_keeps _ _
  exact .ite (fun _ => (putControl_keeps s _).trans (spoilBuffer_keeps _)) fun _ => putControl_keeps s _

theorem badControlWord_keeps (w : BitVec 32) (s : State) : Keeps s (badControlWord w s) := by
  refine .ite (fun _ => .ite (fun _ => ?_) fun _ => passControl_keeps _ _) fun _ => .refl s
  exact .ite (fun _ => (putControl_keeps s _).trans (spoilBuffer_keeps _)) fun _ => putControl_keeps s _

theorem setReply_keeps (s : State) (r : Option Reply) : Keeps s (s.setCtl { s.ctl with reply := r }) := setCtl_keeps id rfl rfl

theorem idleWord_keeps (address : NodeAddr) (payload : BitVec 16) (s : State) : Keeps s (idleWord address payload s) := by
  refine .ite (fun _ => ?_) fun _ => passControl_keeps _ _
  split
  · exact (putControl_keeps s _).trans (setReply_keeps _ _)
  · exact putControl_keeps _ _

/-! ### Requests of the control interface -/

theorem identifyOwner_answered (ws : List Word16) (s : State) : Answered s 12 (Keeps s) (identifyOwner ws s) := by
  unfold identifyOwner
  split
  · exact .report rfl (.refl s)
  · exact .refusal rfl

theorem ownRefused_answered (words : Nat) (ws : List Word16) (s : State) :
    Answered s 0 (Keeps s) (ownRefused words ws s) := .ite (fun _ => .refusal rfl) fun _ => .refusal rfl

theorem enrollOwner_answered (ws : List Word16) (s : State) : Answered s 12 (Keeps s) (enrollOwner ws s) := by
  unfold enrollOwner
  split
  · exact .ite (fun _ => .report rfl (setRing_keeps rfl rfl)) fun _ => .refusal rfl
  · exact .refusal rfl

theorem universalEnroll_keeps (low : BitVec 8) (s : State) : Keeps s (universalEnroll low s) :=
  .ite (fun _ => forwardClose_keeps _ _ _ _) fun _ =>
    (examine_answered fun ws => enrollOwner_answered ws s).state_keeps.trans (consume_after _ _)

theorem release_keeps (s : State) : Keeps s s.release := by
  have unnamed : Keeps s (s.setRing { s.ring with address := 0 }) := setRing_keeps rfl rfl
  exact unnamed.trans (endCalls_keeps _ _ _)

theorem releaseOwner_answered (ws : List Word16) (s : State) : Answered s 0 (Keeps s) (releaseOwner ws s) := by
  unfold releaseOwner
  split
  · exact .ok (release_keeps s)
  · exact .refusal rfl

theorem universalRequest_keeps {s : State} {n : Nat} {owner : List Word16 → State → Answer} (code low : BitVec 8)
    (h : ∀ ws, Answered s n (Keeps s) (owner ws s)) : Keeps s (universalRequest code owner low s) :=
  (examine_answered h).state_keeps.trans (forwardClose_keeps _ _ _ _)

theorem replyWords_length (l : List EventRec) : (l.flatMap EventRec.replyWords).length = 2 * l.length := by
  induction l with
  | nil => rfl
  | cons e rest ih =>
    rw [List.flatMap_cons, List.length_append, ih, List.length_cons]
    change 2 + 2 * rest.length = 2 * (rest.length + 1)
    omega

theorem readEvents_answered (ws : List Word16) (s : State) :
    Answered s (1 + 2 * min 7 s.ctl.events.length) (Keeps s) (readEvents ws s) := by
  unfold readEvents
  split
  · refine .report ?_ (setCtl_keeps (fun ⟨events, full, words⟩ => ⟨?_, fun h => absurd h Bool.false_ne_true, words⟩) rfl rfl)
    · rw [List.length_cons, replyWords_length, List.length_take]
      omega
    · rw [List.length_append, List.length_drop]
      cases caught : s.ctl.catchRec with
      | none => simp only [Option.toList_none, List.length_nil]; omega
      | some e =>
        have := full (by rw [caught]; rfl)
        simp only [Option.toList_some, List.length_singleton]
        omega
  · exact .refusal rfl

/-- Other settings touch no invariant. -/
theorem setSettings_kept (s : State) (x : Settings) (y : Option Settings) :
    Kept s (s.setCtl { s.ctl with settings := x, incoming := y }) := { Kept.refl s with }

theorem applySettings_kept (s : State) : Kept s s.applySettings := by
  unfold State.applySettings
  split
  · exact setSettings_kept s _ none
  · exact .refl s

theorem setNode_answered (ws : List Word16) (s : State) : Answered s 0 (Kept s) (setNode ws s) := by
  unfold setNode
  split
  · split
    · exact .refusal rfl
    · exact .ite (fun _ => .refusal rfl) fun _ => .ok (setSettings_kept s s.ctl.settings _)
  · exact .refusal rfl

/-! ### The soft reset -/

theorem clipReset_keeps (s : State) : Keeps s s.clipReset := .ite (fun _ => .refl s) fun _ => dropCapture_keeps s

theorem pagesReset_keeps (s : State) : Keeps s s.pagesReset := .foldl (fun s id => removePage_keeps s id 6) _ s

/-- The soft reset empties the page queue. -/
theorem pagesReset_queue (s : State) : s.pagesReset.pages.queue = [] := by
  have removed (l : List PageId) (u : State) :
      (l.foldl (fun u id => u.removePage id 6) u).pageIds = u.pageIds.filter (fun id => !l.contains id) := by
    induction l generalizing u with
    | nil => simp
    | cons id rest ih =>
      rw [List.foldl_cons, ih, State.pageIds, removePage_ids, List.filter_filter]
      refine List.filter_congr fun x _ => ?_
      simp only [List.contains_cons, Bool.not_or, bne, Bool.and_comm]
  have none : s.pagesReset.pageIds = [] := by
    rw [State.pagesReset, removed, List.filter_eq_nil_iff]
    simp
  exact List.map_eq_nil_iff.mp none

/-- The TAKE record returns to IDLE with its banks as they are or swapped; the queue is empty afterwards, so no zone is
held against them. -/
theorem blocksReset_keeps (s : State) : Keeps s s.blocksReset := by
  let r := s.takeReset.mixReset.clipReset
  have mix : Keeps s.takeReset s.takeReset.mixReset := setMix_banks_keeps rfl rfl
  have before : Keeps s.takeReset r.pagesReset := (mix.trans (clipReset_keeps _)).trans (pagesReset_keeps _)
  have after : Keeps r.pagesReset s.blocksReset :=
    (((endCalls_keeps _ _ _).trans (icomReset_keeps _)).trans (setLines_keeps _ _)).trans (trackersReset_keeps _)
  have free : r.pagesReset.zonesFree := fun p hp => by rw [pagesReset_queue] at hp; cases hp
  have all := before.trans after
  exact
    { memory := all.memory, control := all.control, trackers := all.trackers, inserts := all.inserts
      alarm := all.alarm, pages := all.pages, zones := fun ok _ => after.zones (before.pages ok) free
      calls := all.calls, apart := all.apart, hold := all.hold, settings := all.settings, incoming := all.incoming
      receiver := all.receiver }

theorem softReset_keeps (s : State) : Keeps s s.softReset := by
  have emptied (r : State) : Keeps r (r.setCtl { r.ctl with events := [], catchRec := none, overflow := false }) :=
    setCtl_keeps (fun ⟨_, _, words⟩ => ⟨Nat.zero_le _, fun h => absurd h Bool.false_ne_true, words⟩) rfl rfl
  exact ((blocksReset_keeps s).trans (emptied _)).trans (post_keeps _ _ _ _)

theorem resetNode_answered (ws : List Word16) (s : State) : Answered s 0 (Keeps s) (resetNode ws s) := by
  unfold resetNode
  split
  · exact .ok (softReset_keeps s)
  · exact .refusal rfl

/-! ### The close of a period -/

theorem closeClips_keeps (s : State) : Keeps s s.closeClips := by
  have fetched := (burstDone_keeps s).trans (.forEach playerPrimed_keeps _)
  have captured := ((fetched.trans (captureFull_keeps _)).trans (captureEnd_keeps _)).trans (captureDone_keeps _)
  exact (captured.trans (.forEach chimeEnd_keeps _)).trans (.forEach sequenceEnd_keeps _)

theorem pageEvents_keeps (s : State) (id : PageId) :
    Keeps s (pageExpired id (pageSourceLost id (pageTimedOut id (gapEnd id s)))) :=
  (((gapEnd_keeps id s).trans (pageTimedOut_keeps id _)).trans (pageSourceLost_keeps id _)).trans (pageExpired_keeps id _)

theorem closePages_keeps (s : State) : Keeps s s.closePages := (Keeps.foldl pageEvents_keeps _ s).trans (settle_keeps _)

theorem feedEvents_keeps (f : Fin 4) (s : State) :
    Keeps s (mismatchBlockEnd f (feedAutoRevert f (feedBothLost f (feedChangeover f s)))) :=
  (((feedChangeover_keeps f s).trans (feedBothLost_keeps f _)).trans (feedAutoRevert_keeps f _)).trans
    (mismatchBlockEnd_keeps f _)

theorem closeFeeds_keeps (s : State) : Keeps s s.closeFeeds := (Keeps.forEach feedEvents_keeps s).trans (takeDone_keeps _)

theorem closeAlarms_keeps (s : State) : Keeps s s.closeAlarms := by
  have contacts := (Keeps.forEach contactActivate_keeps s).trans (.forEach contactClear_keeps _)
  exact ((contacts.trans (.forEach broadcastRefresh_keeps _)).trans (.forEach notConfirmed_keeps _)).trans
    (.forEach generatorStepEnd_keeps _)

theorem slotOver_keeps (s : State) : Keeps s s.slotOver := by
  unfold State.slotOver
  split
  · exact .ite (fun _ => pollMiss_keeps _ _) fun _ => .refl s
  · exact .refl s

theorem leftKeys_keeps (s : State) : Keeps s s.leftKeys := by
  have handled (u : State) (x : Fin 32 × Key) : Keeps u (handleKey x.1 x.2 u) := handleKey_keeps x.1 x.2 u
  exact .foldl handled s.icom.keys s

theorem closeCalls_keeps (s : State) : Keeps s s.closeCalls := by
  have stations := (slotOver_keeps s).trans (.forEach stationLost_keeps _)
  have keys := (stations.trans (leftKeys_keeps _)).trans (.forEach cueTimerExpiry_keeps _)
  exact keys.trans (.foldl (fun s id => (callNoAnswer_keeps id s).trans (callHeldTooLong_keeps id _)) _ _)

theorem feedTick_keeps (s : State) : Keeps s s.feedTick := setFeeds_keeps _ _

theorem closeRest_keeps (s : State) : Keeps s s.closeRest := by
  have scanned := (scanStepEnd_keeps s).trans (scanRestEnd_keeps _)
  exact ((scanned.trans (.forEach trackerBlockEnd_keeps _)).trans (.forEach slotClash_keeps _)).trans (alertSend_keeps _)

/-- The events that the close of a period takes, and the cue of its poll. -/
def State.closed (s : State) : State :=
  s.closeClips.closeFeeds.closeAlarms.closeCalls.closePages.closeRest.pollCue

theorem closePeriod_eq (s : State) : closePeriod s = s.closed.applySettings := rfl

theorem closed_keeps (s : State) : Keeps s s.closed := by
  have events := ((closeClips_keeps s).trans (closeFeeds_keeps _)).trans (closeAlarms_keeps _)
  have rest := ((events.trans (closeCalls_keeps _)).trans (closePages_keeps _)).trans (closeRest_keeps _)
  exact rest.trans (pollCue_keeps _)

theorem closePeriod_keeps (s : State) : Kept s (closePeriod s) := (closed_keeps s).toKept.trans (applySettings_kept _)

theorem applySettings_settings (s : State) : s.applySettings.ctl.settings = s.ctl.incoming.getD s.ctl.settings ∧
    s.applySettings.ctl.incoming = none := by
  unfold State.applySettings
  cases brought : s.ctl.incoming with
  | some x => exact ⟨rfl, rfl⟩
  | none => exact ⟨rfl, brought⟩

/-- A SET NODE of the period holds once its events are taken. -/
theorem closePeriod_settings (s : State) :
    (closePeriod s).ctl.settings = s.ctl.incoming.getD s.ctl.settings ∧ (closePeriod s).ctl.incoming = none := by
  have applied := applySettings_settings s.closed
  rw [(closed_keeps s).settings, (closed_keeps s).incoming] at applied
  rw [closePeriod_eq]
  exact applied

/-! ### The arrival of a cycle -/

theorem leaveLocked_keeps (s : State) : Keeps s s.leaveLocked :=
  ((clearBuffer_keeps s).trans (captureRingLost_keeps _)).trans (takeRingLost_keeps _)

theorem enterHunt_keeps (s : State) : Keeps s s.enterHunt :=
  ((post_keeps s _ _ _).trans (endCalls_keeps _ _ _)).trans (setReply_keeps _ _)

theorem rxChanged_keeps (s : State) (before : RxState) : Keeps s (s.rxChanged before) := by
  unfold State.rxChanged
  split
  · exact leaveLocked_keeps s
  · exact enterHunt_keeps s
  · exact post_keeps _ _ _ _
  · exact .refl s

theorem received_inserts (r : Ring) (align : Fin 1626) (c : RingCycle) :
    ((r.receive align c).numbered r.rx c).inserts = r.inserts := by
  have moved := (receive_receiverOnly r align c).inserts
  unfold Ring.numbered
  split
  · exact moved
  · exact moved

/-- What an arrival brings, after the receiver has moved. -/
def State.afterMove (s : State) (before : RxState) (c : RingCycle) : State :=
  let u := (s.rxChanged before).countClashes c.slots
  if u.heard then u.compareTake c.number else u

/-- The ring interface with the receiver moved by an arriving cycle. -/
def Ring.moved (r : Ring) (align : Fin 1626) (c : RingCycle) : Ring :=
  { (r.receive align c).numbered r.rx c with arrived := some c }

theorem arrive_eq (s : State) (align : Fin 1626) (c : RingCycle) :
    s.arrive align c = (s.setRing (s.ring.moved align c)).afterMove s.ring.rx c := rfl

theorem afterMove_keeps (s : State) (before : RxState) (c : RingCycle) : Keeps s (s.afterMove before c) := by
  have counted := (rxChanged_keeps s before).trans (countClashes_keeps _ c.slots)
  exact .ite (fun _ => counted.trans (compareTake_keeps _ _)) fun _ => counted

theorem arrive_keeps (s : State) (align : Fin 1626) (c : RingCycle) : Kept s (s.arrive align c) := by
  have received : Kept s (s.setRing (s.ring.moved align c)) :=
    setRing_kept (congrArg (List.map (·.slot)) (received_inserts s.ring align c))
  exact received.trans (afterMove_keeps _ s.ring.rx c).toKept

theorem cycleArrival_keeps (align : Fin 1626) (c : RingCycle) (s : State) : Kept s (cycleArrival align c s) :=
  .ite (fun _ => (closePeriod_keeps s).trans (arrive_keeps _ _ _)) fun _ =>
    .ite (fun _ => setRing_kept (s := s) (r := s.ring.record align c) rfl) fun _ => .refl s

/-! ### One cycle period -/

theorem beginPeriod_keeps (s : State) : Keeps s s.beginPeriod := by
  have idled := Keeps.forEach (fun p s => idlePlayer_keeps s p) s
  have chosen := (idled.trans (takeStart_keeps _)).trans (scanChoose_keeps _)
  exact ((chosen.trans (burstGrant_keeps _)).trans (pollStart_keeps _)).trans (readTaps_keeps _)

theorem begun_keeps (s : State) : Kept s s.begun := by
  have closed : Kept s (if s.ring.arrived.isSome then s else closePeriod s) :=
    .ite (fun _ => .refl s) fun _ => closePeriod_keeps s
  exact closed.trans (beginPeriod_keeps _).toKept

theorem prepare_keeps (s : State) (frame : Vector RawSample 32) : Keeps s (s.prepare frame) :=
  ((takeInputs_keeps s frame).trans (glideAll_keeps _)).trans (duckAll_keeps _)

theorem send_keeps (s : State) (k : Computation) : Keeps s (s.send k) :=
  (((sendFrame_keeps s _).trans (sendCycle_keeps _ _)).trans (countGenerated_keeps _)).trans (setSamples_keeps _ _ _)

theorem advance_keeps (s : State) : Keeps s s.advance := by
  have played := (Keeps.forEach (fun p s => playerStep_keeps s p) s).trans (advanceAll_keeps _)
  have fed := (played.trans (feedTick_keeps _)).trans (.forEach (fun f s => feedRecovery_keeps s f) _)
  exact (fed.trans (captureSample_keeps _)).trans (measureAll_keeps _)

theorem tick_keeps (s : State) (contacts : BitVec 4) : Keeps s (s.tick contacts) :=
  ((((pageTick_keeps s).trans (icomTick_keeps _)).trans (alarmTick_keeps _ contacts)).trans (setLines_keeps _ _)).trans
    (burstTick_keeps _)

theorem finish_keeps (s : State) : Keeps s s.finish :=
  ((advanceScene_keeps s).trans (actOnHanded_keeps _)).trans (nextForward_keeps _)

/-- What follows the beginning of a period. -/
theorem afterBegun_keeps (frame : Vector RawSample 32) (contacts : BitVec 4) (s : State) :
    Keeps s ((((s.prepare frame).send (s.prepare frame).compute).advance.tick contacts).finish) :=
  (((prepare_keeps s frame).trans (send_keeps _ _)).trans (advance_keeps _)).trans
    ((tick_keeps _ contacts).trans (finish_keeps _))

theorem cyclePeriod_keeps (frame : Vector RawSample 32) (contacts : BitVec 4) (s : State) :
    Kept s (cyclePeriod frame contacts s) :=
  (begun_keeps s).trans (afterBegun_keeps frame contacts _).toKept

/-! ### CLOSE words -/

/-- What the owners of the request code table answer, with the number of REPLY words of each (R30, 2.8.5). -/
theorem ownerOf_answered {code : BitVec 8} {owner : List Word16 → State → Answer} (h : ownerOf code = some owner)
    (ws : List Word16) (s : State) : Answered s (replyCount code s.ctl.events.length) (Kept s) (owner ws s) := by
  have all : ∀ x ∈ owners, Answered s (replyCount x.1 s.ctl.events.length) (Kept s) (x.2 ws s) := by
    simp only [owners, List.cons_append, List.nil_append, List.forall_mem_cons, List.not_mem_nil, false_implies,
      implies_true, and_true]
    exact ⟨(ownRefused_answered 1 ws s).kept, (ownRefused_answered 0 ws s).kept, (identifyOwner_answered ws s).kept, (readEvents_answered ws s).kept,
      (resetNode_answered ws s).kept, setNode_answered ws s, (setInsert_answered ws s).kept, (clearInsert_answered ws s).kept,
      (setPort_answered ws s).kept, (setInput_answered ws s).kept, (setChannel_answered ws s).kept, (loadRoute_answered ws s).kept,
      (clearRoute_answered ws s).kept, (setZone_answered ws s).kept, (setZoneLocal_answered ws s).kept, (readZone_answered ws s).kept,
      (takeOwner_answered ws s).kept, (copyBank_answered ws s).kept, (setFeed_answered ws s).kept, (revertFeed_answered ws s).kept,
      (defineClip_answered ws s).kept, (deleteClip_answered ws s).kept, (writeClip_answered ws s).kept, (captureClip_answered ws s).kept,
      (cancelCapture_answered ws s).kept, (readClip_answered ws s).kept, (queuePage_answered ws s).kept, (cancelPage_answered ws s).kept,
      (readPage_answered ws s).kept, (setStation_answered ws s).kept, (offerCall_answered ws s).kept, (bridgeCall_answered ws s).kept,
      (endCallRequest_answered ws s).kept, (readCall_answered ws s).kept, (setPatternStep_answered ws s).kept, (setContact_answered ws s).kept,
      (setGroup_answered ws s).kept, (alarmStart_answered ws s).kept, (alarmStop_answered ws s).kept, (silenceAlarm_answered ws s).kept,
      (setWindow_answered ws s).kept, (setScan_answered ws s).kept, (readLines_answered ws s).kept, (setTracker_answered ws s).kept,
      (resetTracker_answered ws s).kept, (readTracker_answered ws s).kept⟩
  obtain ⟨x, found, rfl⟩ := Option.map_eq_some_iff.mp h
  have code_eq : x.1 = code := by simpa using List.find?_some found
  rw [← code_eq]
  exact all x (List.mem_of_find?_eq_some found)

theorem universalOf_keeps (code low : BitVec 8) (s : State) : Keeps s (universalOf code low s) :=
  .ite (fun _ => universalEnroll_keeps low s) fun _ =>
    .ite (fun _ => universalRequest_keeps _ _ fun ws => releaseOwner_answered ws s) fun _ =>
      .ite (fun _ => universalRequest_keeps _ _ fun ws => takeOwner_answered ws s) fun _ => forwardClose_keeps _ _ _ _

theorem examineCode_keeps (code : BitVec 8) (s : State) : Kept s (examineCode code s).state := by
  unfold examineCode
  split
  · rename_i owner found
    exact (examine_answered fun ws => ownerOf_answered found ws s).state_kept
  · split
    · exact .refl s
    · exact .refl s

theorem closeAny_keeps (address : NodeAddr) (code low : BitVec 8) (s : State) : Kept s (closeAny address code low s) := by
  refine .ite (fun _ => ?_) fun _ => (passControl_keeps _ _).toKept
  refine .ite (fun _ => (universalOf_keeps code low s).toKept) fun _ =>
    .ite (fun _ => ?_) fun _ => (forwardClose_keeps _ _ _ _).toKept
  exact .ite (fun _ => (overlapClose_keeps s address).toKept) fun _ =>
    (examineCode_keeps code s).trans (consume_after code _).toKept

end Sys2Proof.Machine
end

section
/-! A step keeps the invariants of the node, and the reset state meets them. -/

namespace Sys2Proof.Machine

/-! ### The reset state -/

theorem reset_trackersOk : State.reset.trackersOk := fun z => by
  have powerOn : State.reset.trackers[z] = ZoneTracker.powerOn := Vector.getElem_replicate _
  rw [powerOn]
  exact ⟨Nat.le_refl _, Nat.le_refl _, Nat.zero_le _, Nat.le_refl _, Nat.le_refl _, Nat.le_refl _,
    show 16384 ≤ 65226 by decide⟩

theorem reset_alarmOk : State.reset.alarmOk := by
  have records (e : Fin 8) : State.reset.alarm.records[e] = none := Vector.getElem_replicate _
  have generators (i : Fin 4) : State.reset.alarm.generators[i] = none := Vector.getElem_replicate _
  have coverage (z : Fin 24) : State.reset.alarm.coverage[z] = none := Vector.getElem_replicate _
  refine ⟨List.nodup_nil, fun e => ?_, fun z e covered => ?_, fun i g hg => ?_, fun i j g h hg _ => ?_⟩
  · rw [records]
    exact iff_of_false List.not_mem_nil fun ne => ne rfl
  · rw [coverage] at covered
    cases covered
  · rw [generators] at hg
    cases hg
  · rw [generators] at hg
    cases hg

theorem reset_controlOk : State.reset.controlOk :=
  ⟨Nat.zero_le _, fun caught => absurd caught Bool.false_ne_true, Nat.zero_le _⟩

theorem reset_pagesOk : State.reset.pagesOk :=
  ⟨Nat.zero_le _, List.nodup_nil, .nil, fun _ h => absurd h List.not_mem_nil, .nil, .nil,
    fun _ h => absurd h List.not_mem_nil⟩

theorem reset_zonesFree : State.reset.zonesFree := fun _ h => absurd h List.not_mem_nil

theorem reset_callsOk : State.reset.callsOk := ⟨Nat.zero_le _, .nil⟩

theorem reset_callsApart : State.reset.callsApart := ⟨.nil, fun _ h => absurd h List.not_mem_nil⟩

theorem reset_holdOk : State.reset.holdOk := fun _ h => absurd h List.not_mem_nil

/-- The state after reset meets every invariant, whatever came before it. -/
theorem reset_keeps (s : State) (l : List Instr) : Kept s { State.reset with pending := l } where
  memory := fun _ => reset_memory_wf
  control := fun _ => reset_controlOk
  trackers := fun _ => reset_trackersOk
  inserts := fun _ => List.nodup_nil
  alarm := fun _ => reset_alarmOk
  pages := fun _ => reset_pagesOk
  zones := fun _ _ => reset_zonesFree
  calls := fun _ => reset_callsOk
  apart := fun _ _ => reset_callsApart
  hold := fun _ _ _ => reset_holdOk

/-! ### Every command -/

theorem closeAny_eq_closeWord {code low : BitVec 8} {owner : List Word16 → State → Answer} {universal : State → State}
    (owns : ownerOf code = some owner) (hears : ∀ s, universalOf code low s = universal s) (a : NodeAddr) (s : State) :
    closeAny a code low s = closeWord universal owner code a low s := by
  simp only [closeAny, closeWord, examineCode, owns, hears]

/-- A request row is a CLOSE word of its code. -/
theorem exec_request {i : Instr} {code : BitVec 8} {a : NodeAddr} {low : BitVec 8} (h : requestOf i = some (code, a, low))
    (s : State) : exec i s = .next (closeAny a code low s) := by
  cases i <;> cases h <;> exact congrArg Host.Outcome.next (closeAny_eq_closeWord rfl (fun _ => rfl) a s).symm

/-- The rows that are no requests keep the invariants. -/
theorem exec_event_keeps {i : Instr} (row : requestOf i = none) (s : State) : ∃ t, exec i s = .next t ∧ Kept s t := by
  cases i
  case powerOn => exact ⟨_, rfl, reset_keeps s _⟩
  case pinReset => exact ⟨_, rfl, reset_keeps s _⟩
  case cyclePeriod frame contacts => exact ⟨_, rfl, cyclePeriod_keeps frame contacts s⟩
  case cycleArrival align c => exact ⟨_, rfl, cycleArrival_keeps align c s⟩
  case ringLost align c => exact ⟨_, rfl, .ite (fun _ => cycleArrival_keeps align c s) fun _ => .refl s⟩
  case ringRegained align c => exact ⟨_, rfl, .ite (fun _ => cycleArrival_keeps align c s) fun _ => .refl s⟩
  case paramWord a d => exact ⟨_, rfl, (paramWord_keeps a d s).toKept⟩
  case closeOther a p => exact ⟨_, rfl, closeAny_keeps a _ _ s⟩
  case echoWord a p => exact ⟨_, rfl, (echoWord_keeps a p s).toKept⟩
  case faultWord a p => exact ⟨_, rfl, (faultWordIn_keeps a p s).toKept⟩
  case badControlWord w => exact ⟨_, rfl, (badControlWord_keeps w s).toKept⟩
  case sendReplyWord a p => exact ⟨_, rfl, (idleWord_keeps a p s).toKept⟩
  case unknownRequest a code low => exact ⟨_, rfl, closeAny_keeps a code low s⟩
  case alertWordArrival w => exact ⟨_, rfl, (alertWordArrival_keeps w s).toKept⟩
  case alertSend => exact ⟨_, rfl, (alertSend_keeps s).toKept⟩
  case slotClash slot => exact ⟨_, rfl, (slotClash_keeps slot s).toKept⟩
  case returnLaneFrame rs => exact ⟨_, rfl, (setLines_keeps s _).toKept⟩
  case takeStart => exact ⟨_, rfl, (takeStart_keeps s).toKept⟩
  case takeDone => exact ⟨_, rfl, (takeDone_keeps s).toKept⟩
  case feedChangeover f => exact ⟨_, rfl, (feedChangeover_keeps f s).toKept⟩
  case feedBothLost f => exact ⟨_, rfl, (feedBothLost_keeps f s).toKept⟩
  case feedAutoRevert f => exact ⟨_, rfl, (feedAutoRevert_keeps f s).toKept⟩
  case mismatchBlockEnd f => exact ⟨_, rfl, (mismatchBlockEnd_keeps f s).toKept⟩
  case captureFull => exact ⟨_, rfl, (captureFull_keeps s).toKept⟩
  case captureEnd => exact ⟨_, rfl, (captureEnd_keeps s).toKept⟩
  case captureDone => exact ⟨_, rfl, (captureDone_keeps s).toKept⟩
  case burstGrant => exact ⟨_, rfl, (burstGrant_keeps s).toKept⟩
  case burstDone => exact ⟨_, rfl, (burstDone_keeps s).toKept⟩
  case playerPrimed p => exact ⟨_, rfl, (playerPrimed_keeps p s).toKept⟩
  case chimeEnd p => exact ⟨_, rfl, (chimeEnd_keeps p s).toKept⟩
  case sequenceEnd p => exact ⟨_, rfl, (sequenceEnd_keeps p s).toKept⟩
  case gapEnd id => exact ⟨_, rfl, (gapEnd_keeps id s).toKept⟩
  case pageExpired id => exact ⟨_, rfl, (pageExpired_keeps id s).toKept⟩
  case pageTimedOut id => exact ⟨_, rfl, (pageTimedOut_keeps id s).toKept⟩
  case pageSourceLost id => exact ⟨_, rfl, (pageSourceLost_keeps id s).toKept⟩
  case pollReply port keys => exact ⟨_, rfl, (pollReply_keeps port keys s).toKept⟩
  case pollMiss port => exact ⟨_, rfl, (pollMiss_keeps port s).toKept⟩
  case stationLost port => exact ⟨_, rfl, (stationLost_keeps port s).toKept⟩
  case cueTimerExpiry port => exact ⟨_, rfl, (cueTimerExpiry_keeps port s).toKept⟩
  case call port n => exact ⟨_, rfl, (callKey_keeps port n s).toKept⟩
  case answer port => exact ⟨_, rfl, (answerKey_keeps port s).toKept⟩
  case hangUp port => exact ⟨_, rfl, (hangUpKey_keeps port s).toKept⟩
  case emergency port => exact ⟨_, rfl, (emergencyKey_keeps port s).toKept⟩
  case pagePress port => exact ⟨_, rfl, (pagePressKey_keeps port s).toKept⟩
  case pageRelease port => exact ⟨_, rfl, (pageReleaseKey_keeps port s).toKept⟩
  case volumeUp port => exact ⟨_, rfl, (volumeKey_keeps port _ _ s).toKept⟩
  case volumeDown port => exact ⟨_, rfl, (volumeKey_keeps port _ _ s).toKept⟩
  case callNoAnswer id => exact ⟨_, rfl, (callNoAnswer_keeps id s).toKept⟩
  case callHeldTooLong id => exact ⟨_, rfl, (callHeldTooLong_keeps id s).toKept⟩
  case generatorStepEnd g => exact ⟨_, rfl, (generatorStepEnd_keeps g s).toKept⟩
  case contactActivate k => exact ⟨_, rfl, (contactActivate_keeps k s).toKept⟩
  case contactClear k => exact ⟨_, rfl, (contactClear_keeps k s).toKept⟩
  case broadcastRefresh e => exact ⟨_, rfl, (broadcastRefresh_keeps e s).toKept⟩
  case notConfirmed e => exact ⟨_, rfl, (notConfirmed_keeps e s).toKept⟩
  case scanStepEnd => exact ⟨_, rfl, (scanStepEnd_keeps s).toKept⟩
  case scanRestEnd => exact ⟨_, rfl, (scanRestEnd_keeps s).toKept⟩
  case trackerBlockEnd z => exact ⟨_, rfl, (trackerBlockEnd_keeps z s).toKept⟩
  case universalCloseForwarded p => exact ⟨_, rfl, closeAny_keeps 0 _ _ s⟩
  case ownCloseDiscarded p => exact ⟨_, rfl, .ite (fun _ => .refl s) fun _ => closeAny_keeps _ _ _ s⟩
  all_goals cases row

theorem exec_keeps (i : Instr) (s : State) : ∃ t, exec i s = .next t ∧ Kept s t := by
  cases row : requestOf i with
  | some x => exact ⟨_, exec_request row s, closeAny_keeps _ _ _ s⟩
  | none => exact exec_event_keeps row s

/-- Every step keeps every invariant. -/
theorem step_keeps {s t : State} (h : step s = .next t) : Kept s t := by
  unfold step at h
  split at h
  · cases h
    exact .refl s
  · rename_i c rest _
    have taken : Kept s { s with pending := rest } := { Kept.refl s with }
    obtain ⟨u, run, keeps⟩ := exec_keeps c { s with pending := rest }
    rw [run] at h
    cases h
    exact taken.trans keeps

end Sys2Proof.Machine

open Sys2Proof Sys2Proof.Machine

/-- Settles O1: a step is defined so. -/
theorem stepRunsTheFrontCommand : Obligations.StepRunsTheFrontCommand := fun _ _ _ => rfl

/-- Settles O3: of the relation that every step keeps, the part on clip memory. -/
theorem clipMemoryStaysCanonical : Obligations.ClipMemoryStaysCanonical := fun _ _ ok h => (step_keeps h).memory ok

/-- Settles O4: each of the four invariants is kept from itself alone. -/
theorem stepsKeepTheInvariants : Obligations.StepsKeepTheInvariants := fun _ _ h =>
  have keeps := step_keeps h
  ⟨keeps.control, keeps.trackers, keeps.inserts, keeps.alarm⟩

/-- Settles O5. -/
theorem resetMeetsTheInvariants : Obligations.ResetMeetsTheInvariants :=
  ⟨reset_memory_wf, reset_controlOk, reset_trackersOk, List.nodup_nil, reset_alarmOk, reset_pagesOk, reset_zonesFree,
    reset_callsOk, reset_callsApart, reset_holdOk⟩

/-- Settles O58: of the relation that every step keeps, the part on the page queue. -/
theorem pageQueueKeepsItsOrderAndHolders : Obligations.PageQueueKeepsItsOrderAndHolders :=
  fun _ _ ok h => (step_keeps h).pages ok

/-- Settles O59: the zones' freedom is kept while `pagesOk` holds, which is kept itself. -/
theorem heldZonesStayFreeToTheirHolders : Obligations.HeldZonesStayFreeToTheirHolders :=
  fun _ _ ok free h => (step_keeps h).zones ok free

/-- Settles O60: the hold is kept while `callsOk` and `alarmOk` hold, which are kept themselves. -/
theorem callTableKeepsItsBounds : Obligations.CallTableKeepsItsBounds := fun _ _ ok h =>
  have keeps := step_keeps h
  ⟨keeps.calls ok, keeps.apart ok, keeps.hold ok⟩

end

section
/-! POWER ON and PIN RESET, the words of the control slot, and the examination of an own CLOSE. -/

namespace Sys2Proof.Machine

/-! ### Words -/

/-- A CLOSE payload is its request code and its low bits. -/
theorem payload_split (p : BitVec 16) : p.extractLsb' 8 8 ++ p.extractLsb' 0 8 = p := by
  apply BitVec.eq_of_toNat_eq
  simp only [BitVec.toNat_append, BitVec.extractLsb'_toNat]
  rw [← Nat.shiftLeft_add_eq_or_of_lt (by omega)]
  have := p.isLt
  simp only [Nat.shiftRight_eq_div_pow, Nat.shiftLeft_eq]
  omega

/-- A row that is a CLOSE word has the meaning of its address and code. -/
theorem exec_close {i : Instr} {code : BitVec 8} {a : NodeAddr} {low : BitVec 8} (h : closeOf i = some (code, a, low))
    (s : State) : exec i s = .next (closeAny a code low s) := by
  cases i
  case unknownRequest => cases h; rfl
  case closeOther => cases h; rfl
  case universalCloseForwarded => cases h; rfl
  all_goals exact exec_request (by exact h) s

theorem not_heard {s : State} (h : s.ring.rx ≠ .locked) : s.heard = false := by
  simpa [State.heard] using h

theorem heard_locked {s : State} (h : s.ring.rx = .locked) : s.heard = true := s.heard_iff.mpr h

/-- Outside LOCKED a control word only passes. -/
theorem exec_lineWord {i : Instr} {w : BitVec 32} (h : lineWord i = some w) {s : State} (out : s.heard = false) :
    exec i s = .next (s.passControl w) := by
  have close {c : BitVec 8 × NodeAddr × BitVec 8} (hc : closeOf i = some c)
      (hw : some (controlWord .close c.2.1 (c.1 ++ c.2.2)) = some w) : exec i s = .next (s.passControl w) := by
    cases hw
    rw [exec_close (code := c.1) (a := c.2.1) (low := c.2.2) hc, closeAny, if_neg (by simp [out])]
  cases i
  case paramWord a d => cases h; exact congrArg _ (if_neg (by simp [out]))
  case echoWord a p => cases h; exact congrArg _ (if_neg (by simp [out]))
  case faultWord a p => cases h; exact congrArg _ (if_neg (by simp [out]))
  case sendReplyWord a p => cases h; exact congrArg _ (if_neg (by simp [out]))
  case badControlWord v =>
    simp only [lineWord] at h
    split at h
    · rw [← Option.some.inj h]
      change Host.Outcome.next (badControlWord v s) = _
      rw [badControlWord, if_pos ‹_›, if_neg (by simp [out])]
    · cases h
  all_goals
    simp only [lineWord] at h
    obtain ⟨c, hc, hw⟩ := Option.map_eq_some_iff.mp h
    exact close hc (congrArg some hw)

theorem universalOf_forwarded {code : BitVec 8} (h : code ∉ universalCodes) (low : BitVec 8) (s : State) :
    universalOf code low s = s.forwardClose 0 code low := by
  simp only [universalCodes, List.mem_cons, List.not_mem_nil, or_false, not_or] at h
  obtain ⟨enroll, release, take⟩ := h
  rw [universalOf, if_neg enroll, if_neg release, if_neg take]

/-- A CLOSE of another address, and a universal one that no node executes, are forwarded. -/
theorem closeAny_forwarded {s : State} {a : NodeAddr} {code low : BitVec 8} (locked : s.ring.rx = .locked)
    (h : (a ≠ 0 ∧ a ≠ s.ring.address) ∨ (a = 0 ∧ code ∉ universalCodes)) :
    closeAny a code low s = s.forwardClose a code low := by
  rw [closeAny, if_pos (heard_locked locked)]
  rcases h with ⟨named, other⟩ | ⟨rfl, unknown⟩
  · rw [if_neg named, if_neg other]
  · rw [if_pos rfl, universalOf_forwarded unknown]

/-! ### An own CLOSE -/

theorem closeAny_overlap {s : State} {a : NodeAddr} {code low : BitVec 8} {r : Reply} (locked : s.ring.rx = .locked)
    (named : a ≠ 0) (own : a = s.ring.address) (pending : s.ctl.reply = some r) :
    closeAny a code low s = s.overlapClose a := by
  rw [closeAny, if_pos (heard_locked locked), if_neg named, if_pos own, if_pos (by rw [pending]; rfl)]

theorem closeAny_own {s : State} {a : NodeAddr} (h : s.own a) (code low : BitVec 8) :
    closeAny a code low s = State.consume code (examineCode code s) := by
  obtain ⟨locked, named, own, none⟩ := h
  rw [closeAny, if_pos (heard_locked locked), if_neg named, if_pos own, if_neg (by simp [none])]

/-- The codes of the table are those that have an owner. -/
theorem ownerOf_eq_none_iff (code : BitVec 8) : ownerOf code = none ↔ code ∉ requestCodes := by
  have codes : requestCodes = owners.map (·.1) := rfl
  rw [codes, ownerOf, Option.map_eq_none_iff, List.find?_eq_none, List.mem_map]
  constructor
  · rintro none ⟨x, hx, rfl⟩
    exact none x hx (beq_self_eq_true _)
  · rintro none x hx same
    exact none ⟨x, hx, beq_iff_eq.mp same⟩

theorem ownerOf_some {code : BitVec 8} (h : code ∈ requestCodes) : ∃ owner, ownerOf code = some owner :=
  Option.ne_none_iff_exists'.mp fun none => (ownerOf_eq_none_iff code).mp none h

theorem examineCode_spoiled {s : State} (code : BitVec 8) (h : s.ctl.buffer.spoiled = true) :
    examineCode code s = .refuse .check s := by
  unfold examineCode examine
  split
  · rw [if_pos h]
  · rw [if_pos h]

theorem examineCode_unknown {s : State} {code : BitVec 8} (h : s.ctl.buffer.spoiled = false) (unknown : code ∉ requestCodes) :
    examineCode code s = .refuse .unknown s := by
  rw [examineCode, (ownerOf_eq_none_iff code).mpr unknown]
  exact if_neg (by simp [h])

theorem examineCode_owner {s : State} {code : BitVec 8} {owner : List Word16 → State → Answer} (h : ownerOf code = some owner) :
    examineCode code s = examine owner s := by
  rw [examineCode, h]

theorem examine_unspoiled {s : State} (owner : List Word16 → State → Answer) (h : s.ctl.buffer.spoiled = false) :
    examine owner s = if s.ctl.buffer.tooLong then .refuse .badLength s else owner s.ctl.buffer.words s :=
  if_neg (by simp [h])

/-- An own request with words in an unmarked buffer is answered by its owner. -/
theorem exec_asked {i : Instr} {code low : BitVec 8} {a : NodeAddr} {ws : List Word16} {s : State}
    {owner : List Word16 → State → Answer} (row : requestOf i = some (code, a, low)) (owns : ownerOf code = some owner)
    (asked : s.asked a ws) : exec i s = .next (State.consume code (owner ws s)) := by
  obtain ⟨own, buffer⟩ := asked
  rw [exec_request row, closeAny_own own, examineCode_owner owns, examine_unspoiled owner (by rw [buffer]), buffer]
  rfl

/-! ### Words of the other kinds in LOCKED -/

theorem spoils_iff (s : State) (a : NodeAddr) :
    s.spoils a = true ↔ a = s.ring.address ∨ a = 0 ∨ s.ctl.buffer.words ≠ [] := by
  simp only [State.spoils, State.collects, Bool.or_eq_true, beq_iff_eq, Bool.not_eq_true', List.isEmpty_eq_false_iff]
  tauto

/-- A check is a long division with the complement fed in. -/
theorem checkOf_eq {w n : Nat} (g : BitVec w) (body : BitVec n) : checkOf g body =
    (List.range n).foldl (fun (r : BitVec w) k =>
      if body.getLsbD (n - 1 - k) = r.getLsbD (w - 1) then r <<< 1 else (r <<< 1) ^^^ g) 0 := by
  unfold checkOf
  rw [List.foldl_map]
  refine List.foldl_ext _ _ _ fun r k hk => ?_
  have bit : body.getMsbD k = body.getLsbD (n - 1 - k) := by simp [BitVec.getMsbD, List.mem_range.mp hk]
  have top : r.msb = r.getLsbD (w - 1) := BitVec.msb_eq_getLsbD_last r
  rw [checkStep, bit, top]
  by_cases same : body.getLsbD (n - 1 - k) = r.getLsbD (w - 1)
  · rw [if_pos same, if_neg (by simp [same])]
  · rw [if_neg same, if_pos (by simpa using same)]

end Sys2Proof.Machine

open Sys2Proof Sys2Proof.Machine

/-- Settles O6: outside LOCKED every control word passes, in LOCKED the CLOSE words of others do. -/
theorem wordsForOthersOnlyPass : Obligations.WordsForOthersOnlyPass := by
  refine ⟨fun i w s line => ⟨fun hunt => ?_, fun suspect => ?_⟩, fun i code a low s row locked others => ?_,
    fun a p s locked => ⟨fun named other => ?_, fun unknown => ?_⟩⟩
  · rw [exec_lineWord line (not_heard (by rw [hunt]; decide)), passControl_hunt s w hunt]
  · rw [exec_lineWord line (not_heard (by rw [suspect]; decide)), passControl_suspect s w suspect]
  · rw [exec_close row, closeAny_forwarded locked others]
    rfl
  · rw [exec_close (i := .closeOther a p) rfl, closeAny_forwarded locked (.inl ⟨named, other⟩), State.forwardClose,
      payload_split]
    rfl
  · rw [exec_close (i := .universalCloseForwarded p) rfl, closeAny_forwarded locked (.inr ⟨rfl, unknown⟩),
      State.forwardClose, payload_split]
    rfl

/-- Settles O10: the address and the pending reply decide. -/
theorem paramWordsAreCollected : Obligations.ParamWordsAreCollected := by
  intro s a d locked
  have heard := heard_locked locked
  have exec_eq : exec (.paramWord a d) s = .next (paramWord a d s) := rfl
  refine ⟨fun named other => ?_, fun named own pending => ?_, fun collected => ?_⟩
  · rw [exec_eq, paramWord, if_pos heard, if_neg (by tauto)]
    have foreign : (s.putControl (controlWord .param a d)).collects a = false := by
      simp only [State.collects, Bool.or_eq_false_iff, beq_eq_false_iff_ne]
      exact ⟨named, other⟩
    simp only [foreign, Bool.false_eq_true, if_false]
    rfl
  · rw [exec_eq, paramWord, if_pos heard, if_pos ⟨named, own, pending⟩, State.faultWord, ← own]
    rfl
  · rw [exec_eq, paramWord, if_pos heard, if_neg ?_]
    · have collects : (s.putControl (controlWord .param a d)).collects a = true := by
        simp only [State.collects, Bool.or_eq_true, beq_iff_eq]
        exact collected.imp id And.left
      simp only [collects, if_true]
      rfl
    · rintro ⟨named, own, pending⟩
      rcases collected with zero | ⟨-, none⟩
      · exact named zero
      · simp [none] at pending


/-- Settles O11: each kind of word by its branch. -/
theorem echoFaultBadAndIdleWordsPassOn : Obligations.EchoFaultBadAndIdleWordsPassOn := by
  refine ⟨fun body => checkOf_eq 0x09 body, fun kind a p => by cases kind <;> rfl, fun s locked => ?_⟩
  have heard := heard_locked locked
  refine ⟨fun a p => ⟨?_, fun check => ?_, fun other => ?_, fun none => ?_, fun w rest code st reply => ?_,
    fun code st reply => ?_⟩, fun w bad => ?_⟩
  · change Host.Outcome.next (echoWord a p s) = _
    rw [echoWord, if_pos heard]
    rfl
  · change Host.Outcome.next (faultWordIn a p s) = _
    have spoils : (s.putControl (controlWord .fault a p)).spoils a = s.spoils a := rfl
    simp only [faultWordIn, heard, if_true, spoils, spoils_iff]
    by_cases here : a = s.ring.address ∨ a = 0 ∨ s.ctl.buffer.words ≠ []
    · rw [if_pos ⟨check, here⟩, if_pos here]
      rfl
    · rw [if_neg fun both => here both.2, if_neg here]
      rfl
  · change Host.Outcome.next (faultWordIn a p s) = _
    rw [faultWordIn, if_pos heard]
    exact congrArg _ (if_neg fun both => other both.1)
  · change Host.Outcome.next (idleWord a p s) = _
    rw [idleWord, if_pos heard, none]
    rfl
  · change Host.Outcome.next (idleWord a p s) = _
    rw [idleWord, if_pos heard, reply]
    rfl
  · change Host.Outcome.next (idleWord a p s) = _
    rw [idleWord, if_pos heard, reply]
    have pending : (!s.ctl.events.isEmpty) = decide (s.ctl.events ≠ []) := by
      cases s.ctl.events <;> rfl
    simp only [State.replyWord, echoPayload, pending]
    rfl
  · change Host.Outcome.next (badControlWord w s) = _
    have isBad : badWord w = true := by
      simp only [badWord, Bool.or_eq_true, bne_iff_ne, decide_eq_true_eq]
      exact bad
    have spoils (v : BitVec 32) (a : NodeAddr) : (s.putControl v).spoils a = s.spoils a := rfl
    simp only [badControlWord, isBad, heard, if_true, spoils, spoils_iff]
    unfold wordAddress
    split
    · rfl
    · rfl

/-- Settles O8: what `Answered` says of every owner. -/
theorem refusedRequestsChangeNothing : Obligations.RefusedRequestsChangeNothing := by
  intro i code a low s row own
  have answered : Answered s (replyCount code s.ctl.events.length) (Kept s) (examineCode code s) := by
    cases owns : ownerOf code with
    | some owner =>
      rw [examineCode_owner owns]
      exact examine_answered fun ws => ownerOf_answered owns ws s
    | none =>
      rw [examineCode, owns]
      exact .ite (fun _ => .refusal rfl) fun _ => .refusal rfl
  rw [exec_request row, closeAny_own own]
  generalize examineCode code s = answer at answered
  cases answered with
  | refused status ok accepted =>
    exact ⟨_, status, [], rfl, rfl, fun _ _ => rfl, fun taken => (taken.elim ok accepted).elim⟩
  | taken t status words good length _ =>
    exact ⟨_, status, words, rfl, rfl, fun ok accepted => (good.elim ok accepted).elim, fun _ => length⟩

end

section
/-! BAD LENGTH and OUT OF RANGE: what every owner of a request answers to a wrong number of words, and to words that
its decoders refuse. -/

namespace Sys2Proof.Machine

/-! ### BAD LENGTH -/

theorem ownRefused_badLength {n : Nat} {ws : List Word16} (h : ws.length < n ∨ n < ws.length) (s : State) :
    ownRefused n ws s = .refuse .badLength s := if_neg (by omega)

theorem writeClip_badLength {ws : List Word16} (h : ws.length < 3 ∨ 16 < ws.length) (s : State) :
    writeClip ws s = .refuse .badLength s := by
  unfold writeClip
  split
  · simp only [List.length_cons] at h
    exact if_pos (by omega)
  · rfl

/-- Every owner refuses a number of words that its request does not allow: its match lists that number alone. -/
theorem owner_badLength (s : State) : ∀ x ∈ owners, ∀ ws : List Word16,
    ws.length < (wordCounts x.1).1 ∨ (wordCounts x.1).2 < ws.length → x.2 ws s = .refuse .badLength s := by
  simp only [owners, List.cons_append, List.nil_append, List.forall_mem_cons, List.not_mem_nil, false_implies,
    implies_true, and_true]
  refine ⟨fun ws h => ownRefused_badLength h s, fun ws h => ownRefused_badLength h s, ?_⟩
  and_intros
  any_goals exact fun ws h => writeClip_badLength h s
  all_goals
    intro ws wrong
    simp only [identifyOwner, readEvents, resetNode, setNode, setInsert, clearInsert, setPort, setInput,
      setChannel, loadRoute, clearRoute, setZone, setZoneLocal, readZone, takeOwner, copyBank, setFeed, revertFeed,
      defineClip, deleteClip, captureClip, cancelCapture, readClip, queuePage, cancelPage, readPage, setStation,
      offerCall, bridgeCall, endCallRequest, readCall, setPatternStep, setContact, setGroup, alarmStart, alarmStop,
      silenceAlarm, setWindow, setScan, readLines, setTracker, resetTracker, readTracker]
    split
    any_goals rfl
    all_goals simp [wordCounts] at wrong

theorem mem_owners_of_ownerOf {code : BitVec 8} {owner : List Word16 → State → Answer} (h : ownerOf code = some owner) :
    (code, owner) ∈ owners := by
  obtain ⟨x, found, rfl⟩ := Option.map_eq_some_iff.mp h
  have same : x.1 = code := by simpa using List.find?_some found
  exact same ▸ List.mem_of_find?_eq_some found

/-- A TOO LONG buffer and a wrong number of words are answered BAD LENGTH, whatever the request of the table. -/
theorem examineCode_badLength {s : State} {code : BitVec 8} (unspoiled : s.ctl.buffer.spoiled = false)
    (known : code ∈ requestCodes)
    (wrong : s.ctl.buffer.tooLong = true ∨ s.ctl.buffer.words.length < (wordCounts code).1 ∨
      (wordCounts code).2 < s.ctl.buffer.words.length) :
    examineCode code s = .refuse .badLength s := by
  obtain ⟨owner, owns⟩ := ownerOf_some known
  rw [examineCode_owner owns, examine_unspoiled owner unspoiled]
  split
  · rfl
  · exact owner_badLength s _ (mem_owners_of_ownerOf owns) _ (wrong.resolve_left ‹_›)

/-! ### What the decoders take -/

theorem index_lt {n x : Nat} {i : Fin n} (h : index n x = some i) : x < n := by
  by_contra above
  rw [index_of_ge (by omega)] at h
  cases h

theorem wordIndex_lt {n : Nat} {w : Word16} {i : Fin n} (h : wordIndex n w = some i) : w.toNat < n := index_lt h

theorem flagWord_le {w : Word16} {b : Bool} (h : flagWord w = some b) : w.toNat ≤ 1 := by
  unfold flagWord at h
  split_ifs at h
  · omega
  · omega

theorem codedIndex_range {base n : Nat} {w : Word16} {i : Fin n} (h : codedIndex base n w = some i) :
    base ≤ w.toNat ∧ w.toNat < base + n := by
  unfold codedIndex at h
  split_ifs at h with above
  have := index_lt h
  omega

theorem optionalIndex_range {n absent : Nat} {w : Word16} {t : Option (Fin n)} (h : optionalIndex n absent w = some t) :
    w.toNat = absent ∨ w.toNat < n := by
  unfold optionalIndex at h
  split_ifs at h with none
  · exact .inl none
  · obtain ⟨i, hi, -⟩ := Option.map_eq_some_iff.mp h
    exact .inr (wordIndex_lt hi)

theorem insertSource_range {w : Word16} {src : InsertSource} (h : insertSource w = some src) :
    (256 ≤ w.toNat ∧ w.toNat < 288) ∨ (512 ≤ w.toNat ∧ w.toNat < 536) ∨ (768 ≤ w.toNat ∧ w.toNat < 772) := by
  unfold insertSource at h
  split at h
  · exact .inl (codedIndex_range ‹_›)
  · exact .inr (.inl (codedIndex_range ‹_›))
  · exact .inr (.inr (codedIndex_range ‹_›))
  · cases h

theorem inputRole_range {w : Word16} {r : InputRole} (h : inputRole w = some r) :
    w.toNat = 0 ∨ (256 ≤ w.toNat ∧ w.toNat ≤ 303) := by
  unfold inputRole at h
  split_ifs at h with line sense
  · exact .inl line
  · obtain ⟨z, hz, -⟩ := Option.map_eq_some_iff.mp h
    have := index_lt hz
    omega

theorem channelRole_range {w : Word16} {r : ChannelRole} (h : channelRole w = some r) :
    w.toNat = 0 ∨ (256 ≤ w.toNat ∧ w.toNat < 280) ∨ (512 ≤ w.toNat ∧ w.toNat < 544) := by
  unfold channelRole at h
  split at h
  · exact .inr (.inl (codedIndex_range ‹_›))
  · exact .inr (.inr (codedIndex_range ‹_›))
  · split_ifs at h with none
    exact .inl none

theorem routeSource_range {w : Word16} {src : RouteSource} (h : routeSource w = some src) :
    w.toNat < 64 ∨ (256 ≤ w.toNat ∧ w.toNat < 288) ∨ (512 ≤ w.toNat ∧ w.toNat < 516) := by
  unfold routeSource at h
  split at h
  · exact .inl (wordIndex_lt ‹_›)
  · exact .inr (.inl (codedIndex_range ‹_›))
  · exact .inr (.inr (codedIndex_range ‹_›))
  · cases h

theorem routeRole_le {w : Word16} {r : RouteRole} (h : routeRole w = some r) : w.toNat ≤ 1 := by
  unfold routeRole at h
  split_ifs at h
  · omega
  · omega

theorem zoneMode_range {mode threshold : Word16} {m : ZoneMode} (h : zoneMode mode threshold = some m) :
    mode.toNat ≤ 2 ∧ (mode.toNat = 1 → 1 ≤ threshold.toNat ∧ threshold.toNat ≤ 15) := by
  unfold zoneMode at h
  split_ifs at h with normal locked range off
  · omega
  · omega
  · omega

theorem feedWord_range {w : Word16} {f : Fin 4 × Bool} (h : feedWord w = some f) :
    w.toNat < 4 ∨ (256 ≤ w.toNat ∧ w.toNat < 260) := by
  unfold feedWord at h
  split at h
  · exact .inl (wordIndex_lt ‹_›)
  · exact .inr (codedIndex_range ‹_›)
  · cases h

theorem pageSource_range {w : Word16} {list : List Word16} {src : PageSource} (h : pageSource w list = some src) :
    w.toNat < 64 ∨ (256 ≤ w.toNat ∧ w.toNat < 288) ∨ (513 ≤ w.toNat ∧ w.toNat < 521) := by
  unfold pageSource at h
  split at h
  · exact .inl (wordIndex_lt ‹_›)
  · exact .inr (.inl (codedIndex_range ‹_›))
  · exact .inr (.inr (codedIndex_range ‹_›))
  · cases h

theorem dirNumber_range {w : Word16} {n : DirNumber} (h : dirNumber w = some n) : 1 ≤ w.toNat ∧ w.toNat ≤ 9999 := by
  unfold dirNumber at h
  split_ifs at h with range
  exact range

theorem byteId_range {w : Word16} {id : BitVec 8} (h : byteId w = some id) : 1 ≤ w.toNat ∧ w.toNat ≤ 255 := by
  unfold byteId at h
  split_ifs at h with range
  exact range

theorem stepMode_le {n : Nat} {m : StepMode} (h : stepMode n = some m) : n ≤ 2 := by
  unfold stepMode at h
  split at h
  · omega
  · omega
  · omega
  · cases h

theorem alarmClass_le {n : Nat} {c : AlarmClass} (h : alarmClass n = some c) : n ≤ 3 := by
  unfold alarmClass at h
  split at h
  · omega
  · omega
  · omega
  · omega
  · cases h

theorem zoneSetOf_range {low high : Word16} {zs : ZoneSet} (h : zoneSetOf low high = some zs) : high.toNat ≤ 255 := by
  unfold zoneSetOf at h
  split_ifs at h with range
  exact range

/-- Two words of 0 name no zone. -/
theorem zoneSetOf_zero {low high : Word16} {zs : ZoneSet} (h : zoneSetOf low high = some zs) (hl : low.toNat = 0)
    (hh : high.toNat = 0) : zs = 0 := by
  have low_zero : low = 0 := BitVec.eq_of_toNat_eq hl
  have high_zero : high = 0 := BitVec.eq_of_toNat_eq hh
  subst low_zero high_zero
  exact (Option.some.inj h).symm

/-! ### OUT OF RANGE, owner by owner

Each hypothesis `bad` is the first row of the request's check table, as `outOfRange` has it. -/

theorem field_eq (w : Word16) (first len : Nat) : field w first len = w.toNat / 2 ^ first % 2 ^ len := by
  rw [field, BitVec.extractLsb'_toNat, Nat.shiftRight_eq_div_pow]

theorem requestPageId_eq_false_iff (id : PageId) :
    requestPageId id = false ↔ id.toNat = 0 ∨ (65280 ≤ id.toNat ∧ id.toNat ≤ 65311) := by
  have zero : id = 0 ↔ id.toNat = 0 := by rw [← BitVec.toNat_inj]; rfl
  simp only [requestPageId, Bool.and_eq_false_iff, bne_eq_false_iff_eq, zero, Bool.not_eq_false', Bool.and_eq_true,
    decide_eq_true_eq]

section OutOfRange

variable (s : State)

theorem setNode_outOfRange {mode number ring hold gain : Word16} (bad : (outside 0 1 mode || outside 0 9999 number) = true) :
    setNode [mode, number, ring, hold, gain] s = .refuse .outOfRange s := by
  simp only [Bool.or_eq_true, outside_iff] at bad
  simp only [setNode]
  split
  · rfl
  · have := flagWord_le ‹_›
    exact if_pos (by omega)

theorem setPort_outOfRange {port format : Word16} (bad : (outside 0 1 port || outside 0 1 format) = true) :
    setPort [port, format] s = .refuse .outOfRange s := by
  simp only [Bool.or_eq_true, outside_iff] at bad
  simp only [setPort]
  split
  · have := flagWord_le ‹flagWord port = _›
    have := flagWord_le ‹flagWord format = _›
    omega
  · rfl

theorem setInput_outOfRange {input trim role : Word16}
    (bad : (outside 0 31 input || outside 0 3 trim || (outside 0 0 role && outside 256 303 role)) = true) :
    setInput [input, trim, role] s = .refuse .outOfRange s := by
  simp only [Bool.or_eq_true, Bool.and_eq_true, outside_iff] at bad
  simp only [setInput]
  split
  · have := wordIndex_lt ‹wordIndex 32 input = _›
    have := wordIndex_lt ‹wordIndex 4 trim = _›
    have := inputRole_range ‹_›
    omega
  · rfl

theorem setChannel_outOfRange {channel role : Word16}
    (bad : (outside 0 31 channel || (outside 0 0 role && outside 256 279 role && outside 512 543 role)) = true) :
    setChannel [channel, role] s = .refuse .outOfRange s := by
  simp only [Bool.or_eq_true, Bool.and_eq_true, outside_iff] at bad
  simp only [setChannel]
  split
  · have := wordIndex_lt ‹_›
    have := channelRole_range ‹_›
    omega
  · rfl

theorem loadRoute_outOfRange {zone src gain role : Word16}
    (bad : (outside 0 23 zone || badRouteSource src || outside 0 1 role) = true) :
    loadRoute [zone, src, gain, role] s = .refuse .outOfRange s := by
  simp only [badRouteSource, Bool.or_eq_true, Bool.and_eq_true, outside_iff] at bad
  simp only [loadRoute]
  split
  · have := wordIndex_lt ‹_›
    have := routeSource_range ‹_›
    have := routeRole_le ‹_›
    omega
  · rfl

theorem clearRoute_outOfRange {zone src : Word16} (bad : (outside 0 23 zone || badRouteSource src) = true) :
    clearRoute [zone, src] s = .refuse .outOfRange s := by
  simp only [badRouteSource, Bool.or_eq_true, Bool.and_eq_true, outside_iff] at bad
  simp only [clearRoute]
  split
  · have := wordIndex_lt ‹_›
    have := routeSource_range ‹_›
    omega
  · rfl

theorem setZone_outOfRange {zone mode h master depth attack release : Word16}
    (bad : (outside 0 23 zone || outside 0 2 mode || (mode.toNat == 1 && outside 1 15 h)) = true) :
    setZone [zone, mode, h, master, depth, attack, release] s = .refuse .outOfRange s := by
  simp only [Bool.or_eq_true, Bool.and_eq_true, beq_iff_eq, outside_iff] at bad
  simp only [setZone]
  split
  · have := wordIndex_lt ‹_›
    have := zoneMode_range ‹_›
    omega
  · rfl

theorem setFeed_outOfRange {pair main backup delay hi lo : Word16}
    (bad : ((outside 0 3 pair && outside 256 259 pair) || outside 0 63 main || outside 0 63 backup ||
      outside 0 127 hi) = true) :
    setFeed [pair, main, backup, delay, hi, lo] s = .refuse .outOfRange s := by
  simp only [Bool.or_eq_true, Bool.and_eq_true, outside_iff] at bad
  simp only [setFeed]
  split
  · have := feedWord_range ‹_›
    have := wordIndex_lt ‹wordIndex 64 main = _›
    have := wordIndex_lt ‹wordIndex 64 backup = _›
    exact if_pos (by omega)
  · rfl

theorem defineClip_outOfRange {clip hi lo lenHi lenLo honour trim : Word16}
    (bad : (outside 0 255 clip || outside 0 63 hi || outside 0 1 honour || wide lenHi lenLo == 0 ||
      decide (4194304 < wide lenHi lenLo)) = true) :
    defineClip [clip, hi, lo, lenHi, lenLo, honour, trim] s = .refuse .outOfRange s := by
  simp only [Bool.or_eq_true, beq_iff_eq, decide_eq_true_eq, outside_iff] at bad
  simp only [defineClip]
  split
  · have := wordIndex_lt ‹_›
    have := flagWord_le ‹_›
    exact if_pos (by change _ ∨ _ ∨ 4194304 < _; omega)
  · rfl

theorem captureClip_outOfRange {clip slot mode : Word16}
    (bad : (outside 0 255 clip || outside 0 63 slot || outside 0 1 mode) = true) :
    captureClip [clip, slot, mode] s = .refuse .outOfRange s := by
  simp only [Bool.or_eq_true, outside_iff] at bad
  simp only [captureClip]
  split
  · have := wordIndex_lt ‹wordIndex 256 clip = _›
    have := wordIndex_lt ‹wordIndex 64 slot = _›
    have := flagWord_le ‹_›
    omega
  · rfl

theorem writeClip_outOfRange {w0 w1 d : Word16} {data : List Word16} (length : data.length ≤ 13)
    (bad : decide (63 < w0.toNat % 256) = true) :
    writeClip (w0 :: w1 :: d :: data) s = .refuse .outOfRange s := by
  have high : 63 < field w0 0 8 := by simpa [field_eq] using bad
  simp only [writeClip]
  rw [if_neg (by simp only [List.length_cons]; omega), if_pos high]

theorem queuePage_outOfRange {id w1 src chime l0 l1 l2 l3 zlo zhi gap wait limit gain : Word16}
    (bad : (id.toNat == 0 || !outside 65280 65311 id || w1.toNat % 16 == 0
      || (outside 0 63 src && outside 256 287 src && outside 513 520 src)
      || (outside 0 255 chime && outside 65535 65535 chime) || outside 0 255 zhi
      || (zlo.toNat == 0 && zhi.toNat == 0)) = true) :
    queuePage [id, w1, src, chime, l0, l1, l2, l3, zlo, zhi, gap, wait, limit, gain] s = .refuse .outOfRange s := by
  simp only [Bool.or_eq_true, Bool.and_eq_true, Bool.not_eq_true', ← Bool.not_eq_true, beq_iff_eq, outside_iff] at bad
  simp only [queuePage]
  split
  · have := pageSource_range ‹_›
    have := optionalIndex_range ‹chimeWord chime = _›
    have := zoneSetOf_range ‹_›
    have empty := zoneSetOf_zero ‹_›
    refine if_pos ?_
    rw [requestPageId_eq_false_iff, field_eq]
    by_cases none : zlo.toNat = 0 ∧ zhi.toNat = 0
    · exact .inr (.inr (empty none.1 none.2))
    · omega
  · rfl

theorem setStation_outOfRange {port number mic speaker listen breakIn glo ghi prio limit volume : Word16}
    (bad : (outside 0 31 port || (number.toNat != 0 &&
      (outside 1 9999 number || outside 0 31 mic || outside 0 31 speaker || badOptional 23 listen
        || outside 0 255 ghi || badOptional 23 volume))) = true) :
    setStation [port, number, mic, speaker, listen, breakIn, glo, ghi, prio, limit, volume] s =
      .refuse .outOfRange s := by
  simp only [badOptional, Bool.or_eq_true, Bool.and_eq_true, bne_iff_ne, outside_iff] at bad
  simp only [setStation]
  split
  · rfl
  · have := wordIndex_lt ‹_›
    rw [if_neg (by omega)]
    have refused : stationOf number mic speaker listen breakIn glo ghi prio limit volume = none := by
      unfold stationOf
      split
      · have := dirNumber_range ‹_›
        have := wordIndex_lt ‹wordIndex 32 mic = _›
        have := wordIndex_lt ‹wordIndex 32 speaker = _›
        have := optionalIndex_range ‹optionalIndex 24 255 listen = _›
        have := zoneSetOf_range ‹_›
        have := optionalIndex_range ‹optionalIndex 24 255 volume = _›
        omega
      · rfl
    rw [refused]

theorem offerCall_outOfRange {w0 remote head : Word16}
    (bad : (w0.toNat % 16384 == 0 || decide (9999 < w0.toNat % 16384) || w0.getLsbD 14 || outside 1 9999 remote) = true) :
    offerCall [w0, remote, head] s = .refuse .outOfRange s := by
  simp only [Bool.or_eq_true, beq_iff_eq, decide_eq_true_eq, outside_iff] at bad
  simp only [offerCall]
  split
  · have low : (w0 &&& 0x3FFF).toNat = w0.toNat % 16384 := by
      rw [BitVec.toNat_and]
      exact Nat.and_two_pow_sub_one_eq_mod w0.toNat 14
    have := low ▸ dirNumber_range ‹dirNumber (w0 &&& 0x3FFF) = _›
    have := dirNumber_range ‹dirNumber remote = _›
    exact if_pos (by rcases bad with ((_ | _) | reserved) | _; omega; omega; exact reserved; omega)
  · rfl

theorem bridgeCall_outOfRange {id tx rx : Word16}
    (bad : (outside 1 255 id || outside 0 63 tx || outside 0 63 rx) = true) :
    bridgeCall [id, tx, rx] s = .refuse .outOfRange s := by
  simp only [Bool.or_eq_true, outside_iff] at bad
  simp only [bridgeCall]
  split
  · have := byteId_range ‹_›
    have := wordIndex_lt ‹wordIndex 64 tx = _›
    have := wordIndex_lt ‹wordIndex 64 rx = _›
    omega
  · rfl

theorem endCallRequest_outOfRange {id cause : Word16} (bad : (outside 1 255 id || outside 10 15 cause) = true) :
    endCallRequest [id, cause] s = .refuse .outOfRange s := by
  simp only [Bool.or_eq_true, outside_iff] at bad
  simp only [endCallRequest]
  split
  · rfl
  · have := byteId_range ‹_›
    exact if_pos (by omega)

theorem setPatternStep_outOfRange {w0 duration n1 n2 hi lo : Word16}
    (bad : (decide (w0.toNat / 256 = 0) || decide (7 < w0.toNat / 256) || w0.toNat % 4 == 3 || w0.getLsbD 3 ||
      outside 0 127 hi) = true) :
    setPatternStep [w0, duration, n1, n2, hi, lo] s = .refuse .outOfRange s := by
  simp only [Bool.or_eq_true, beq_iff_eq, decide_eq_true_eq, outside_iff] at bad
  simp only [setPatternStep]
  split
  · have pattern := codedIndex_range ‹_›
    rw [BitVec.toNat_ushiftRight, Nat.shiftRight_eq_div_pow] at pattern
    have mode := stepMode_le ‹_›
    rw [field_eq] at mode
    exact if_pos (by rcases bad with (((_ | _) | _) | reserved) | _; omega; omega; omega; exact .inl reserved; omega)
  · rfl

theorem setContact_outOfRange {line w1 : Word16} (bad : (outside 0 3 line || outside 0 511 w1) = true) :
    setContact [line, w1] s = .refuse .outOfRange s := by
  simp only [Bool.or_eq_true, outside_iff] at bad
  simp only [setContact]
  split
  · have := wordIndex_lt ‹_›
    exact if_pos (by rw [field_eq]; omega)
  · rfl

theorem setGroup_outOfRange {group zlo zhi : Word16}
    (bad : (outside 0 7 group || outside 0 255 zhi || (zlo.toNat == 0 && zhi.toNat == 0)) = true) :
    setGroup [group, zlo, zhi] s = .refuse .outOfRange s := by
  simp only [Bool.or_eq_true, Bool.and_eq_true, beq_iff_eq, outside_iff] at bad
  simp only [setGroup]
  split
  · have := wordIndex_lt ‹_›
    have := zoneSetOf_range ‹_›
    have empty := zoneSetOf_zero ‹_›
    exact if_pos (empty (by omega) (by omega))
  · rfl

theorem alarmStart_outOfRange {id cls group pattern voice broadcast factor : Word16}
    (bad : (outside 1 255 id || outside 0 3 cls || outside 0 7 group || outside 0 7 pattern || badOptional 63 voice
      || outside 0 1 broadcast) = true) :
    alarmStart [id, cls, group, pattern, voice, broadcast, factor] s = .refuse .outOfRange s := by
  simp only [badOptional, Bool.or_eq_true, Bool.and_eq_true, outside_iff] at bad
  simp only [alarmStart]
  split
  · have := byteId_range ‹_›
    have := alarmClass_le ‹_›
    have := wordIndex_lt ‹wordIndex 8 group = _›
    have := wordIndex_lt ‹wordIndex 8 pattern = _›
    have := optionalIndex_range ‹_›
    have := flagWord_le ‹_›
    omega
  · rfl

theorem setWindow_outOfRange {channel enabled low high : Word16}
    (bad : (outside 0 31 channel || outside 0 1 enabled || outside 0 4095 low || outside 0 4095 high
      || decide (high.toNat < low.toNat)) = true) :
    setWindow [channel, enabled, low, high] s = .refuse .outOfRange s := by
  simp only [Bool.or_eq_true, decide_eq_true_eq, outside_iff] at bad
  simp only [setWindow]
  split
  · have := wordIndex_lt ‹_›
    have := flagWord_le ‹_›
    exact if_pos (by omega)
  · rfl

theorem setScan_outOfRange {top burst rest : Word16} (bad : (outside 0 31 top || outside 0 255 burst) = true) :
    setScan [top, burst, rest] s = .refuse .outOfRange s := by
  simp only [Bool.or_eq_true, outside_iff] at bad
  simp only [setScan]
  split
  · rfl
  · have := wordIndex_lt ‹_›
    exact if_pos (by omega)

theorem setTracker_outOfRange {zone p q slope kmin kmax rise fall seed : Word16}
    (bad : (outside 0 23 zone || outside 1 99 p || outside 0 15 q) = true) :
    setTracker [zone, p, q, slope, kmin, kmax, rise, fall, seed] s = .refuse .outOfRange s := by
  simp only [Bool.or_eq_true, outside_iff] at bad
  simp only [setTracker]
  split
  · rfl
  · have := wordIndex_lt ‹_›
    exact if_pos (by omega)

/-! Requests with one index for their first row. -/

theorem wordIndex_outside {n : Nat} {w : Word16} (hn : 0 < n) (h : outside 0 (n - 1) w = true) : wordIndex n w = none := by
  rw [outside_iff] at h
  exact wordIndex_none (by omega)

theorem byteId_outside {w : Word16} (h : outside 1 255 w = true) : byteId w = none := by
  rw [outside_iff] at h
  exact if_neg (by omega)

theorem setZoneLocal_outOfRange {zone level step limit : Word16} (bad : outside 0 23 zone = true) :
    setZoneLocal [zone, level, step, limit] s = .refuse .outOfRange s := by
  simp only [setZoneLocal, wordIndex_outside (n := 24) (by decide) bad]

theorem readZone_outOfRange {zone : Word16} (bad : outside 0 23 zone = true) :
    readZone [zone] s = .refuse .outOfRange s := by
  simp only [readZone, wordIndex_outside (n := 24) (by decide) bad]

theorem revertFeed_outOfRange {pair : Word16} (bad : outside 0 3 pair = true) :
    revertFeed [pair] s = .refuse .outOfRange s := by
  simp only [revertFeed, wordIndex_outside (n := 4) (by decide) bad]

theorem deleteClip_outOfRange {clip : Word16} (bad : outside 0 255 clip = true) :
    deleteClip [clip] s = .refuse .outOfRange s := by
  simp only [deleteClip, wordIndex_outside (n := 256) (by decide) bad]

theorem readClip_outOfRange {clip : Word16} (bad : outside 0 255 clip = true) :
    readClip [clip] s = .refuse .outOfRange s := by
  simp only [readClip, wordIndex_outside (n := 256) (by decide) bad]

theorem silenceAlarm_outOfRange {entry : Word16} (bad : outside 0 7 entry = true) :
    silenceAlarm [entry] s = .refuse .outOfRange s := by
  simp only [silenceAlarm, wordIndex_outside (n := 8) (by decide) bad]

theorem resetTracker_outOfRange {zone : Word16} (bad : outside 0 23 zone = true) :
    resetTracker [zone] s = .refuse .outOfRange s := by
  simp only [resetTracker, wordIndex_outside (n := 24) (by decide) bad]

theorem readTracker_outOfRange {zone : Word16} (bad : outside 0 23 zone = true) :
    readTracker [zone] s = .refuse .outOfRange s := by
  simp only [readTracker, wordIndex_outside (n := 24) (by decide) bad]

theorem readCall_outOfRange {id : Word16} (bad : outside 1 255 id = true) :
    readCall [id] s = .refuse .outOfRange s := by
  simp only [readCall, byteId_outside bad]

theorem alarmStop_outOfRange {id : Word16} (bad : outside 1 255 id = true) :
    alarmStop [id] s = .refuse .outOfRange s := by
  simp only [alarmStop, byteId_outside bad]

theorem cancelPage_outOfRange {id : Word16} (bad : (id.toNat == 0) = true) :
    cancelPage [id] s = .refuse .outOfRange s :=
  if_pos (BitVec.eq_of_toNat_eq (by simpa using bad))

theorem readPage_outOfRange {id : Word16} (bad : (id.toNat == 0) = true) :
    readPage [id] s = .refuse .outOfRange s :=
  if_pos (BitVec.eq_of_toNat_eq (by simpa using bad))

end OutOfRange

/-- Every owner refuses operands that the first row of its check table lists. -/
theorem owner_outOfRange (s : State) : ∀ x ∈ owners, ∀ ws : List Word16, (wordCounts x.1).1 ≤ ws.length →
    ws.length ≤ (wordCounts x.1).2 → outOfRange x.1 ws = true → x.2 ws s = .refuse .outOfRange s := by
  simp only [owners, List.cons_append, List.nil_append, List.forall_mem_cons, List.not_mem_nil, false_implies,
    implies_true, and_true]
  exact ⟨
    fun _ _ _ bad => (Bool.false_ne_true bad).elim,
    fun _ _ _ bad => (Bool.false_ne_true bad).elim,
    fun _ _ _ bad => (Bool.false_ne_true bad).elim,
    fun _ _ _ bad => (Bool.false_ne_true bad).elim,
    fun _ _ _ bad => (Bool.false_ne_true bad).elim,
    fun | [_, _, _, _, _], _, _, bad => setNode_outOfRange s bad,
    fun | [_, _], _, _, bad => setInsert_outOfRange s (operand_none_of_outOfRange bad),
    fun | [_], _, _, bad => clearInsert_outOfRange s (by simpa [outside_iff] using (show outside 0 63 _ = true from bad)),
    fun | [_, _], _, _, bad => setPort_outOfRange s bad,
    fun | [_, _, _], _, _, bad => setInput_outOfRange s bad,
    fun | [_, _], _, _, bad => setChannel_outOfRange s bad,
    fun | [_, _, _, _], _, _, bad => loadRoute_outOfRange s bad,
    fun | [_, _], _, _, bad => clearRoute_outOfRange s bad,
    fun | [_, _, _, _, _, _, _], _, _, bad => setZone_outOfRange s bad,
    fun | [_, _, _, _], _, _, bad => setZoneLocal_outOfRange s bad,
    fun | [_], _, _, bad => readZone_outOfRange s bad,
    fun _ _ _ bad => (Bool.false_ne_true bad).elim,
    fun _ _ _ bad => (Bool.false_ne_true bad).elim,
    fun | [_, _, _, _, _, _], _, _, bad => setFeed_outOfRange s bad,
    fun | [_], _, _, bad => revertFeed_outOfRange s bad,
    fun | [_, _, _, _, _, _, _], _, _, bad => defineClip_outOfRange s bad,
    fun | [_], _, _, bad => deleteClip_outOfRange s bad,
    fun | _ :: _ :: _ :: _, _, _, bad => writeClip_outOfRange s (by simp_all [wordCounts]; omega) bad,
    fun | [_, _, _], _, _, bad => captureClip_outOfRange s bad,
    fun _ _ _ bad => (Bool.false_ne_true bad).elim,
    fun | [_], _, _, bad => readClip_outOfRange s bad,
    fun | [_, _, _, _, _, _, _, _, _, _, _, _, _, _], _, _, bad => queuePage_outOfRange s bad,
    fun | [_], _, _, bad => cancelPage_outOfRange s bad,
    fun | [_], _, _, bad => readPage_outOfRange s bad,
    fun | [_, _, _, _, _, _, _, _, _, _, _], _, _, bad => setStation_outOfRange s bad,
    fun | [_, _, _], _, _, bad => offerCall_outOfRange s bad,
    fun | [_, _, _], _, _, bad => bridgeCall_outOfRange s bad,
    fun | [_, _], _, _, bad => endCallRequest_outOfRange s bad,
    fun | [_], _, _, bad => readCall_outOfRange s bad,
    fun | [_, _, _, _, _, _], _, _, bad => setPatternStep_outOfRange s bad,
    fun | [_, _], _, _, bad => setContact_outOfRange s bad,
    fun | [_, _, _], _, _, bad => setGroup_outOfRange s bad,
    fun | [_, _, _, _, _, _, _], _, _, bad => alarmStart_outOfRange s bad,
    fun | [_], _, _, bad => alarmStop_outOfRange s bad,
    fun | [_], _, _, bad => silenceAlarm_outOfRange s bad,
    fun | [_, _, _, _], _, _, bad => setWindow_outOfRange s bad,
    fun | [_, _, _], _, _, bad => setScan_outOfRange s bad,
    fun _ _ _ bad => (Bool.false_ne_true bad).elim,
    fun | [_, _, _, _, _, _, _, _, _], _, _, bad => setTracker_outOfRange s bad,
    fun | [_], _, _, bad => resetTracker_outOfRange s bad,
    fun | [_], _, _, bad => readTracker_outOfRange s bad⟩

/-- Every request row has a code of the table. -/
theorem requestOf_mem {i : Instr} {code low : BitVec 8} {a : NodeAddr} (row : requestOf i = some (code, a, low)) :
    code ∈ requestCodes := by
  cases i
  all_goals cases row
  all_goals decide

end Sys2Proof.Machine

open Sys2Proof Sys2Proof.Machine

/-- Settles O7: the branches of the examination, in their order. -/
theorem ownClosesAreExaminedInOrder : Obligations.OwnClosesAreExaminedInOrder := by
  refine ⟨fun s a r locked named own pending => ⟨fun i code low close => ?_, fun p => ?_⟩,
    fun s a code low own unspoiled unknown => ?_,
    fun i code a low s close own => ⟨fun spoiled => ?_, fun unspoiled unknown => ?_, fun unspoiled known wrong => ?_⟩⟩
  · rw [exec_close close, closeAny_overlap locked named own pending, State.overlapClose, State.faultWord, ← own]
    rfl
  · have exec_eq : exec (.ownCloseDiscarded p) s = .next (if s.ring.address = 0 then s
      else closeAny s.ring.address (closeCode p) (closeLow p) s) := rfl
    rw [exec_eq, if_neg (own ▸ named), ← own, closeAny_overlap locked named own pending, State.overlapClose,
      State.faultWord, ← own]
    rfl
  · rw [exec_close (i := .unknownRequest a code low) rfl, closeAny_own own, examineCode_unknown unspoiled unknown,
      consume_refuse]
  · rw [exec_close close, closeAny_own own, examineCode_spoiled code spoiled, consume_refuse]
  · rw [exec_close close, closeAny_own own, examineCode_unknown unspoiled unknown, consume_refuse]
  · rw [exec_close close, closeAny_own own, examineCode_badLength unspoiled known wrong, consume_refuse]

/-- Settles O9: each owner refuses the operands that the first row of its table lists. -/
theorem operandsOutOfRangeAreRefused : Obligations.OperandsOutOfRangeAreRefused := by
  intro i code a low ws s row asked least most bad
  obtain ⟨owner, owns⟩ := ownerOf_some (requestOf_mem row)
  have refused : owner ws s = .refuse .outOfRange s :=
    owner_outOfRange s _ (mem_owners_of_ownerOf owns) ws least most bad
  rw [exec_asked row owns asked, refused, consume_refuse]

end

section
/-! POWER ON and PIN RESET, and the requests that act on the node as a whole. -/

namespace Sys2Proof.Machine

theorem replicate_get {α : Type} {n : Nat} (x : α) (i : Fin n) : (Vector.replicate n x)[i] = x :=
  Vector.getElem_replicate i.isLt

theorem ofFn_get {α : Type} {n : Nat} (f : Fin n → α) (i : Fin n) : (Vector.ofFn f)[i] = f i := Vector.getElem_ofFn i.isLt

theorem reset_channel_zone (z : Fin 24) : State.reset.ports.channels[z.val] = .zone z := by
  have channel : State.reset.ports.channels[z.val] = powerOnChannel ⟨z.val, by omega⟩ := Vector.getElem_ofFn (by omega)
  rw [channel, powerOnChannel, dif_pos z.isLt]

theorem reset_channel_none {c : Fin 32} (h : 24 ≤ c.val) : State.reset.ports.channels[c] = .none := by
  have channel : State.reset.ports.channels[c] = powerOnChannel c := ofFn_get powerOnChannel c
  rw [channel, powerOnChannel, dif_neg (by omega)]

/-! ### SET NODE -/

theorem setNode_words (s : State) (staged : Bool) {number ring hold gain : Word16} (range : number.toNat ≤ 9999) :
    setNode [word staged.toNat, number, ring, hold, gain] s = .ok (s.setCtl { s.ctl with
      incoming := some
        { writeMode := if staged then .staged else .direct, emergency := BitVec.ofNat 14 number.toNat
          ringTimeout := min 120 (max 1 ring.toNat), holdLimit := min 600 (max 10 hold.toNat), callGain := gain.toNat } }) := by
  have emergency : number.setWidth 14 = BitVec.ofNat 14 number.toNat := (BitVec.ofNat_toNat 14 number).symm
  simp only [setNode, flagWord_word, if_neg (show ¬ 9999 < number.toNat by omega), emergency]
  rfl

/-! ### ENROLL -/

theorem enrollOwner_range {n : Word16} (least : 1 ≤ n.toNat) (most : n.toNat ≤ 63) (s : State) :
    enrollOwner [n] s =
      .report { s with ring := { s.ring with address := BitVec.ofNat 6 n.toNat } } Config.identifyWords := by
  have address : n.setWidth 6 = BitVec.ofNat 6 n.toNat := (BitVec.ofNat_toNat 6 n).symm
  rw [enrollOwner, if_pos ⟨least, most⟩, address]
  rfl

theorem enrollOwner_outOfRange {n : Word16} (h : n.toNat = 0 ∨ 63 < n.toNat) (s : State) :
    enrollOwner [n] s = .refuse .outOfRange s := if_neg (by omega)

theorem enrollOwner_badLength {ws : List Word16} (h : ws.length ≠ 1) (s : State) :
    enrollOwner ws s = .refuse .badLength s := by
  unfold enrollOwner
  split
  · exact absurd rfl h
  · rfl

theorem exec_enroll_universal {s : State} (low : BitVec 8) (locked : s.ring.rx = .locked) :
    exec (.enroll 0 low) s = .next (universalEnroll low s) := by
  rw [exec_request (i := .enroll 0 low) rfl, closeAny, if_pos (heard_locked locked), if_pos rfl]
  rfl

theorem exec_releaseAll_universal {s : State} (low : BitVec 8) (locked : s.ring.rx = .locked) :
    exec (.releaseAll 0 low) s = .next ((examine releaseOwner s).state.forwardClose 0 0x02 low) := by
  rw [exec_request (i := .releaseAll 0 low) rfl, closeAny, if_pos (heard_locked locked), if_pos rfl]
  rfl

/-- Words or a mark in the buffer leave a RELEASE ALL without effect. -/
theorem releaseOwner_refused {s : State}
    (h : s.ctl.buffer.words ≠ [] ∨ s.ctl.buffer.tooLong = true ∨ s.ctl.buffer.spoiled = true) :
    (examine releaseOwner s).state = s := by
  unfold examine
  split
  · rfl
  · split
    · rfl
    · unfold releaseOwner
      split
      · simp_all
      · rfl

/-- An UNNAMED node with no pending reply consumes a universal ENROLL. -/
theorem exec_enroll_unnamed {s : State} (low : BitVec 8) (locked : s.ring.rx = .locked) (unnamed : s.ring.address = 0)
    (none : s.ctl.reply = none) : exec (.enroll 0 low) s = .next (State.consume 0x01 (examine enrollOwner s)) := by
  rw [exec_enroll_universal low locked, universalEnroll, if_neg (by simp [unnamed, none])]

theorem examine_clear {s : State} {ws : List Word16} (owner : List Word16 → State → Answer)
    (h : s.ctl.buffer = { words := ws, tooLong := false, spoiled := false }) : examine owner s = owner ws s := by
  simp [examine, h]

/-! ### Calls that end together -/

/-- What ended calls leave of the inserts. -/
theorem foldl_callOver_inserts (l : List Call) (cause : Nat) (s : State) :
    (l.foldl (fun s c => s.callOver c cause) s).ring.inserts =
      s.ring.inserts.filter (fun i => l.all (fun c => i.source != .trunkCall c.id)) := by
  induction l generalizing s with
  | nil => simp
  | cons c rest ih =>
    rw [List.foldl_cons, ih]
    simp only [State.callOver, State.withEvent, List.filter_filter, List.all_cons]
    exact List.filter_congr fun i _ => Bool.and_comm _ _

/-- From one state to another only the inserts, the event list, the call table and the cue timers have changed. -/
structure CallsFrame (s t : State) : Prop where
  rest : t = { s with
    ring := { s.ring with inserts := t.ring.inserts }, ctl := t.ctl
    icom := { s.icom with calls := t.icom.calls, table := t.icom.table } }

theorem CallsFrame.refl (s : State) : CallsFrame s s := ⟨rfl⟩

theorem CallsFrame.trans {s t u : State} (h : CallsFrame s t) (k : CallsFrame t u) : CallsFrame s u := by
  have first := h.rest
  have second := k.rest
  rw [first] at second
  exact ⟨second⟩

theorem callOver_callsFrame (s : State) (c : Call) (cause : Nat) : CallsFrame s (s.callOver c cause) :=
  ⟨by simp only [State.callOver, State.withEvent]⟩

theorem endCall_of_some {s : State} {id : CallId} {c : Call} (h : s.callWith id = some c) (cause : BitVec 4) :
    s.endCall id cause = s.callOver c cause.toNat := by
  have named : c.id = id := by simpa using List.find?_some h
  subst named
  have eq := endCall_eq s c cause.toNat h
  rwa [BitVec.ofNat_toNat, BitVec.setWidth_eq] at eq

theorem endCall_callsFrame (s : State) (id : CallId) (cause : BitVec 4) : CallsFrame s (s.endCall id cause) := by
  cases h : s.callWith id with
  | none => rw [endCall_none s id cause h]; exact .refl s
  | some c => rw [endCall_of_some h]; exact callOver_callsFrame s c _

theorem endCalls_callsFrame (s : State) (pick : Call → Bool) (cause : BitVec 4) : CallsFrame s (s.endCalls pick cause) :=
  foldl_keeps CallsFrame.refl CallsFrame.trans _ (fun s id => endCall_callsFrame s id cause) _ s

/-- A static insert is none of a trunk call. -/
theorem static_source_ne {i : Insert} (h : i.static = true) (id : CallId) : i.source ≠ .trunkCall id := by
  intro source
  simp [Insert.static, source] at h

end Sys2Proof.Machine

open Sys2Proof Sys2Proof.Machine

/-- Settles O2, table by table. -/
theorem powerOnLeavesTheResetValues : Obligations.PowerOnLeavesTheResetValues := by
  intro s
  refine ⟨{ State.reset with pending := s.pending }, rfl, rfl, rfl, ⟨rfl, rfl, rfl, rfl, rfl, rfl, rfl⟩,
    ⟨rfl, rfl, rfl, rfl, rfl, rfl⟩, ?ports, ?mix, ?feeds, ?clips, ?intercom, ?alarm, ?lines, ?trackers⟩
  case ports =>
    exact ⟨rfl, rfl, fun i => replicate_get _ i, reset_channel_zone, fun _ => reset_channel_none, rfl⟩
  case mix =>
    refine ⟨rfl, rfl, fun z => ⟨replicate_get _ z, rfl, replicate_get _ z, replicate_get _ z⟩, rfl, rfl, rfl⟩
  case feeds => exact fun f => ofFn_get Feed.powerOn f
  case clips =>
    refine ⟨fun c => replicate_get _ c, rfl, rfl, rfl, fun p => ?_, rfl, rfl⟩
    have idle : State.reset.clips.players[p] = Player.idle := replicate_get _ p
    exact ⟨congrArg Player.state idle, congrArg Player.fifo idle⟩
  case intercom => exact ⟨fun p => ⟨replicate_get _ p, replicate_get _ p⟩, rfl, rfl, rfl⟩
  case alarm =>
    refine ⟨fun p i => ?_, fun g => ⟨replicate_get _ g, replicate_get _ g⟩,
      fun k => ⟨replicate_get _ k, replicate_get _ k⟩, rfl, fun z => replicate_get _ z⟩
    have pattern : State.reset.alarm.patterns[p] = Vector.replicate 16 none := replicate_get _ p
    exact (congrArg (fun v : Vector (Option _) 16 => v[i]) pattern).trans (replicate_get _ i)
  case lines => exact ⟨rfl, rfl, rfl, fun c => ⟨replicate_get _ c, replicate_get _ c⟩⟩
  case trackers => exact fun z => replicate_get _ z

/-- Settles O13: the words of SET NODE are decoded, and the close of a period applies them last. -/
theorem identifyReportsAndSetNodeSets : Obligations.IdentifyReportsAndSetNodeSets := by
  refine fun s a low => ⟨fun asked => ?_, fun staged number ring hold gain range asked => ?_, closePeriod_settings s⟩
  · rw [exec_asked (i := .identify a low) (owner := identifyOwner) rfl rfl asked]
    rfl
  · rw [exec_asked (i := .setNode a low) (owner := setNode) rfl rfl asked, setNode_words s staged range, consume_ok]
    rfl


/-- Settles O14: ENROLL by its owner; RELEASE ALL by the calls that end together. -/
theorem enrollAndReleaseAllSetTheAddress : Obligations.EnrollAndReleaseAllSetTheAddress := by
  intro s low locked
  refine ⟨fun busy => ?_, fun unnamed none => ⟨fun spoiled => ?_, fun unspoiled wrong => ?_, fun n buffer =>
    ⟨fun out => ?_, fun least most => ?_⟩⟩, fun a n asked => ?_, fun clear distinct => ?_, fun unclear => ?_,
    fun a asked => ?_⟩
  · rw [exec_enroll_universal low locked, universalEnroll, if_pos busy]
    rfl
  · rw [exec_enroll_unnamed low locked unnamed none, examine, if_pos spoiled, consume_refuse]
  · rw [exec_enroll_unnamed low locked unnamed none, examine_unspoiled _ unspoiled]
    by_cases long : s.ctl.buffer.tooLong = true
    · rw [if_pos long, consume_refuse]
    · rw [if_neg long, enrollOwner_badLength (wrong.resolve_right long), consume_refuse]
  · rw [exec_enroll_unnamed low locked unnamed none, examine_clear _ buffer, enrollOwner_outOfRange out, consume_refuse]
  · rw [exec_enroll_unnamed low locked unnamed none, examine_clear _ buffer, enrollOwner_range least most, consume_report]
    rfl
  · rw [exec_asked (i := .enroll a low) (owner := ownRefused 1) rfl rfl asked]
    rfl
  · have run : exec (.releaseAll 0 low) s = .next (s.release.forwardClose 0 0x02 low) := by
      rw [exec_releaseAll_universal low locked, examine_clear _ clear]
      rfl
    have release_eq : s.release = (s.icom.calls.filter Call.trunk).foldl (fun s c => s.callOver c 8)
        (s.setRing { s.ring with address := 0 }) := endCalls_eq _ Call.trunk 8 distinct
    have calls : s.release.icom.calls = s.icom.calls.filter (fun c => !c.trunk) :=
      endCalls_calls (s.setRing { s.ring with address := 0 }) Call.trunk 8 distinct
    have ctl : s.release.ctl = ((s.icom.calls.filter Call.trunk).foldl
        (fun v c => v.withEvent .callEnded c.id.toNat 8) s).ctl := by
      rw [release_eq]
      exact foldl_callOver_ctl _ _ _ _ rfl rfl
    have inserts := foldl_callOver_inserts (s.icom.calls.filter Call.trunk) 8 (s.setRing { s.ring with address := 0 })
    have rest := (endCalls_callsFrame (s.setRing { s.ring with address := 0 }) Call.trunk callReleased).rest
    change s.release = _ at rest
    rw [← release_eq] at inserts
    have frame : EventFrame (s.setRing { s.ring with address := 0 }) s.release :=
      foldl_keeps EventFrame.refl EventFrame.trans _ (fun s id => endCall_kept s id callReleased) _ _
    have buffer : s.release.ctl.buffer = s.ctl.buffer := frame.buffer
    have kept : (s.release.forwardClose 0 0x02 low).ctl = s.release.ctl := by
      change { s.release.ctl with buffer := RequestBuffer.clear } = s.release.ctl
      rw [show RequestBuffer.clear = s.release.ctl.buffer from (buffer.trans clear).symm]
    have forward : s.release.ring.forward = s.ring.forward := by rw [rest]; rfl
    refine ⟨_, run, ?_, ?_, calls, fun c hc trunk i hi => ?_, ?_, ?_, ?_, ?_, ?_, (release_keeps s).settings,
      (release_keeps s).incoming, ?_, kept.trans ctl, ?_, ?_, ?_, ?_, ?_, ?_, ?_, ?_, ?_⟩
    · exact (congrArg (fun t : State => t.ring.address) rest :)
    · rw [State.forwardClose]
      change Forward.mk { s.release.ring.forward.cycle with control := _ } _ _ = _
      rw [forward]
      rfl
    · have kept := (List.mem_filter.mp (inserts ▸ hi)).2
      rw [List.all_eq_true] at kept
      simpa using kept c (List.mem_filter.mpr ⟨hc, trunk⟩)
    · have static_kept : s.release.ring.inserts.filter Insert.static = s.ring.inserts.filter Insert.static := by
        rw [inserts, List.filter_filter]
        refine List.filter_congr fun i _ => ?_
        cases static : i.static with
        | false => rfl
        | true => simpa using fun c _ => .inr (static_source_ne static (Call.id c))
      exact static_kept
    · exact (congrArg (fun t : State => t.ring.rx) rest :)
    · exact (congrArg (fun t : State => t.ring.cycleNumber) rest :)
    · exact (congrArg (fun t : State => t.ring.sendList) rest :)
    · exact frame.reply
    · rw [kept, buffer]
    · exact (congrArg State.ports rest :)
    · exact (congrArg State.mix rest :)
    · exact (congrArg State.scene rest :)
    · exact (congrArg State.feeds rest :)
    · exact (congrArg State.clips rest :)
    · exact (congrArg State.pages rest :)
    · exact (congrArg State.alarm rest :)
    · exact (congrArg State.lines rest :)
    · exact (congrArg State.trackers rest :)
  · rw [exec_releaseAll_universal low locked, releaseOwner_refused unclear]
    rfl
  · rw [exec_asked (i := .releaseAll a low) (owner := ownRefused 0) rfl rfl asked]
    rfl

end

section
/-! RESET NODE leaves an IDLE capture record as it stands. -/

namespace Sys2Proof.Machine

theorem pagesReset_frame (s : State) : PagesFrame s s.pagesReset :=
  PagesFrame.foldl _ (fun s id => removePage_pagesFrame s id 6) _ s

/-- The clip engine's part of a soft reset does nothing in the IDLE phase of the capture unit, and no other part writes
the capture record. -/
theorem blocksReset_capture {s : State} (idle : s.clips.capture.phase = .idle) :
    s.blocksReset.clips.capture = s.clips.capture := by
  have kept : s.takeReset.mixReset.clipReset = s.takeReset.mixReset := if_pos idle
  have pages : s.takeReset.mixReset.pagesReset.clips.capture = s.clips.capture := (pagesReset_frame _).capture
  have calls (u : State) : (u.endCalls (fun _ => true) callReset).clips = u.clips :=
    (congrArg State.clips (endCalls_callsFrame u (fun _ => true) callReset).rest :)
  simp only [State.blocksReset, State.trackersReset, State.icomReset, State.setTrackers_clips, State.setLines_clips,
    State.setIcom_clips, calls, kept, pages]

theorem resetNode_capture {s : State} (idle : s.clips.capture.phase = .idle) (code : BitVec 8) :
    (State.consume code (resetNode [] s)).clips.capture = s.clips.capture := by
  rw [← blocksReset_capture idle]
  rfl

/-- A LOCKED node of address 5 whose capture unit is IDLE with one buffered word. -/
def idleWithWord : State :=
  { State.reset with
    ring := { State.reset.ring with rx := .locked, address := 5 }
    clips := { State.reset.clips with capture := { Capture.idle with buffer := [1] } } }

theorem idleWithWord_asked : idleWithWord.asked 5 [] := ⟨⟨rfl, by decide, rfl, rfl⟩, rfl⟩

end Sys2Proof.Machine

open Sys2Proof Sys2Proof.Machine

/-- Refutes O15: the soft reset discards the buffer of a capture in progress alone, so a state whose capture record is IDLE
with a buffered word keeps that word, while the statement wants the buffer empty after RESET NODE of every state. -/
theorem not_resetNodeResetsTheBlocks : ¬ Obligations.ResetNodeResetsTheBlocks := by
  intro h
  obtain ⟨t, run, -, -, -, -, ⟨-, -, -, emptied, -⟩, -⟩ := h idleWithWord 5 0 idleWithWord_asked
  rw [exec_asked (i := .resetNode 5 0) (owner := resetNode) rfl rfl idleWithWord_asked] at run
  have left : t.clips.capture = idleWithWord.clips.capture := by
    rw [← Host.Outcome.next.inj run]
    exact resetNode_capture rfl 0x05
  rw [left] at emptied
  exact List.cons_ne_nil _ _ emptied

end

section
/-! The arrival of a cycle: the receiver with its search, and what its moves bring with them. -/

namespace Sys2Proof.Machine

/-! ### The search -/

/-- A cycle is good after another. -/
def Seen.follows (a b : Seen) : Prop := b.pattern = 0x3A97 ∧ b.number = a.number + 1

/-- The cycles on an alignment that follow `a` are all good: the following counts them and keeps the last number. -/
theorem followCandidate_some {align : Fin 1626} (a : Seen) (run : Nat) (rest : List Seen)
    (h : (a :: rest.filter (fun y => y.align == align)).IsChain Seen.follows) :
    ∃ n, followCandidate align a.number run rest = some (run + (rest.filter (fun y => y.align == align)).length, n) ∧
      (a :: rest.filter (fun y => y.align == align)).getLast?.map (·.number) = some n := by
  induction rest generalizing a run with
  | nil => exact ⟨a.number, rfl, rfl⟩
  | cons y rest ih =>
    by_cases own : y.align = align
    · rw [List.filter_cons_of_pos (by simpa using own)] at h ⊢
      obtain ⟨good, later⟩ := List.isChain_cons_cons.mp h
      obtain ⟨n, followed, last⟩ := ih y (run + 1) later
      refine ⟨n, ?_, by rw [List.getLast?_cons_cons]; exact last⟩
      rw [followCandidate, if_pos own, if_pos (show y.pattern = Config.syncPattern ∧ y.number = a.number + 1 from good), followed, List.length_cons, Nat.add_right_comm, Nat.add_assoc]
    · rw [List.filter_cons_of_neg (by simpa using own)] at h ⊢
      rw [followCandidate, if_neg own]
      exact ih a run h

/-- A bad one among them makes the candidate fail. -/
theorem followCandidate_none {align : Fin 1626} (a : Seen) (run : Nat) (rest : List Seen)
    (h : ¬ (a :: rest.filter (fun y => y.align == align)).IsChain Seen.follows) :
    followCandidate align a.number run rest = none := by
  induction rest generalizing a run with
  | nil => exact absurd (.singleton a) h
  | cons y rest ih =>
    by_cases own : y.align = align
    · rw [List.filter_cons_of_pos (by simpa using own), List.isChain_cons_cons] at h
      rw [followCandidate, if_pos own]
      split
      · rename_i good
        exact ih y (run + 1) fun later => h ⟨good, later⟩
      · rfl
    · rw [List.filter_cons_of_neg (by simpa using own)] at h
      rw [followCandidate, if_neg own]
      exact ih a run h

/-- The search takes the first cycle that can be a candidate's first. -/
theorem resume_candidate (r : Ring) {x : Seen} {rest : List Seen} (candidate : x.candidate rest) (before : List Seen)
    (first : ∀ b1 y b2, before = b1 ++ y :: b2 → ¬ y.candidate (b2 ++ x :: rest)) :
    ∃ n, r.resume (before ++ x :: rest) =
        { r with goodRun := (x.run rest).length, alignment := x.align, prevNumber := n, stream := x :: rest } ∧
      (x.run rest).getLast?.map (·.number) = some n := by
  induction before with
  | nil =>
    obtain ⟨pattern, chain⟩ := candidate
    obtain ⟨n, followed, last⟩ := followCandidate_some x 1 rest chain
    refine ⟨n, ?_, last⟩
    rw [List.nil_append, Ring.resume, if_pos (show x.pattern = Config.syncPattern from pattern), followed, Nat.add_comm]
    rfl
  | cons y before ih =>
    obtain ⟨n, resumed, last⟩ := ih fun b1 z b2 split => first (y :: b1) z b2 (by rw [split]; rfl)
    refine ⟨n, ?_, last⟩
    rw [List.cons_append, Ring.resume]
    split
    · rename_i pattern
      have broken : ¬ (y.run (before ++ x :: rest)).IsChain Seen.follows := fun chain =>
        first [] y before rfl ⟨pattern, chain⟩
      rw [followCandidate_none y 1 _ broken]
      exact resumed
    · exact resumed

/-- With no such cycle the search goes on. -/
theorem resume_none (r : Ring) (l : List Seen)
    (none : ∀ (before : List Seen) (x : Seen) (rest : List Seen), l = before ++ x :: rest → ¬ x.candidate rest) :
    r.resume l = { r with goodRun := 0, stream := [] } := by
  induction l with
  | nil => rfl
  | cons x rest ih =>
    have later := ih fun before y l split => none (x :: before) y l (by rw [split]; rfl)
    rw [Ring.resume]
    split
    · rename_i pattern
      have broken : ¬ (x.run rest).IsChain Seen.follows := fun chain => none [] x rest rfl ⟨pattern, chain⟩
      rw [followCandidate_none x 1 _ broken]
      exact later
    · exact later

/-! ### The receiver -/

theorem good_iff (r : Ring) (c : RingCycle) : r.good c = true ↔ c.pattern = 0x3A97 ∧ c.number = r.prevNumber + 1 := by
  simp [Ring.good, Config.syncPattern]

theorem searching_iff (r : Ring) : r.searching = true ↔ r.rx = .hunt ∧ r.goodRun = 0 := by
  simp [Ring.searching]

theorem reads_iff (r : Ring) (align : Fin 1626) (c : RingCycle) : r.reads align c = true ↔
    ((r.rx = .hunt ∧ r.goodRun = 0) ∧ c.pattern = 0x3A97) ∨ (¬ (r.rx = .hunt ∧ r.goodRun = 0) ∧ align = r.alignment) := by
  rw [← searching_iff, Ring.reads]
  cases r.searching <;> simp [Config.syncPattern]

section Receive

variable {r : Ring} {align : Fin 1626} {c : RingCycle}

theorem receive_locked_good (rx : r.rx = .locked) (good : r.good c = true) :
    r.receive align c = { r with prevNumber := c.number } := by
  simp [Ring.receive, rx, good]

theorem receive_locked_bad (rx : r.rx = .locked) (bad : r.good c = false) :
    r.receive align c = { r with rx := .suspect, missCount := 1, goodRun := 0, prevNumber := c.number } := by
  simp [Ring.receive, rx, bad]

theorem receive_suspect_first (rx : r.rx = .suspect) (good : r.good c = true) (run : r.goodRun = 0) :
    r.receive align c = { r with missCount := 0, goodRun := 1, prevNumber := c.number } := by
  simp [Ring.receive, rx, good, run]

theorem receive_suspect_again (rx : r.rx = .suspect) (good : r.good c = true) (run : r.goodRun ≠ 0) :
    r.receive align c = { r with rx := .locked, goodRun := 2, prevNumber := c.number } := by
  simp [Ring.receive, rx, good, run]

theorem receive_suspect_lost (rx : r.rx = .suspect) (bad : r.good c = false) (misses : r.missCount = 3) :
    r.receive align c =
      { r with rx := .hunt, missCount := 4, goodRun := 0, prevNumber := c.number, stream := [] } := by
  simp [Ring.receive, rx, bad, misses]

theorem receive_suspect_miss (rx : r.rx = .suspect) (bad : r.good c = false) (misses : r.missCount ≠ 3) :
    r.receive align c = { r with missCount := r.missCount + 1, goodRun := 0, prevNumber := c.number } := by
  simp [Ring.receive, rx, bad, misses]

theorem receive_searching (rx : r.rx = .hunt) (run : r.goodRun = 0) (pattern : c.pattern = 0x3A97) :
    r.receive align c =
      { r with goodRun := 1, alignment := align, prevNumber := c.number, stream := [seenAt align c] } := by
  have searching : r.searching = true := (searching_iff r).mpr ⟨rx, run⟩
  have resumed : r.receive align c = r.resume [seenAt align c] := by simp [Ring.receive, rx, searching]
  rw [resumed]
  exact resume_single r (seenAt align c) pattern

theorem not_searching (run : r.goodRun ≠ 0) : r.searching = false := by
  simp [Ring.searching, run]

theorem receive_counting (rx : r.rx = .hunt) (good : r.good c = true) (least : 1 ≤ r.goodRun) (most : r.goodRun ≤ 6) :
    r.receive align c = { r.record align c with goodRun := r.goodRun + 1, prevNumber := c.number } := by
  simp [Ring.receive, rx, good, not_searching (r := r) (by omega), show ¬ 7 ≤ r.goodRun by omega]

theorem receive_locking (rx : r.rx = .hunt) (good : r.good c = true) (run : 7 ≤ r.goodRun) :
    r.receive align c =
      { r with rx := .locked, goodRun := 8, missCount := 0, prevNumber := c.number, stream := [] } := by
  simp [Ring.receive, rx, good, not_searching (r := r) (by omega), run]

theorem receive_failing (rx : r.rx = .hunt) (bad : r.good c = false) (run : 1 ≤ r.goodRun) :
    r.receive align c = r.resume (r.stream ++ [seenAt align c]).tail := by
  simp [Ring.receive, rx, bad, not_searching (r := r) (by omega), Ring.record]

/-- The number of the cycle is kept but by a search that goes back. -/
theorem receive_number (h : r.rx ≠ .hunt ∨ r.good c = true) : (r.receive align c).prevNumber = c.number := by
  cases rx : r.rx with
  | locked =>
    cases good : r.good c with
    | true => rw [receive_locked_good rx good]
    | false => rw [receive_locked_bad rx good]
  | suspect =>
    cases good : r.good c with
    | true =>
      by_cases run : r.goodRun = 0
      · rw [receive_suspect_first rx good run]
      · rw [receive_suspect_again rx good run]
    | false =>
      by_cases misses : r.missCount = 3
      · rw [receive_suspect_lost rx good misses]
      · rw [receive_suspect_miss rx good misses]
  | hunt =>
    have good := h.resolve_left fun ne => ne rx
    by_cases run : r.goodRun = 0
    · rw [receive_searching rx run ((good_iff r c).mp good).1]
    · by_cases last : 7 ≤ r.goodRun
      · rw [receive_locking rx good last]
      · rw [receive_counting rx good (by omega) (by omega)]

end Receive

/-- The receiver read field by field. -/
theorem receiver_eq_iff (r q : Ring) : r.receiver = q.receiver ↔ r.rx = q.rx ∧ r.goodRun = q.goodRun ∧
    r.missCount = q.missCount ∧ r.alignment = q.alignment ∧ r.stream = q.stream ∧ r.prevNumber = q.prevNumber := by
  simp only [Ring.receiver, Prod.mk.injEq]

theorem resume_congr {r q : Ring} (h : r.receiver = q.receiver) (l : List Seen) :
    (r.resume l).receiver = (q.resume l).receiver := by
  obtain ⟨rx, -, misses, alignment, -, number⟩ := (receiver_eq_iff r q).mp h
  induction l with
  | nil =>
    simp only [Ring.resume, Ring.receiver, rx, misses, alignment, number]
  | cons x rest ih =>
    simp only [Ring.resume]
    split
    · split
      · simp only [Ring.receiver, rx, misses]
      · exact ih
    · exact ih

/-- Where a cycle moves the receiver depends on the receiver alone. -/
theorem receive_congr {r q : Ring} (h : r.receiver = q.receiver) (align : Fin 1626) (c : RingCycle) :
    (r.receive align c).receiver = (q.receive align c).receiver := by
  obtain ⟨rx, run, misses, alignment, stream, number⟩ := (receiver_eq_iff r q).mp h
  have searching : r.searching = q.searching := by rw [Ring.searching, rx, run, Ring.searching]
  have good : r.good c = q.good c := by rw [Ring.good, number, Ring.good]
  have recorded : (r.record align c).receiver = (q.record align c).receiver := by
    simp only [Ring.record, Ring.receiver, rx, run, misses, alignment, stream, number]
  cases state : q.rx with
  | hunt =>
    simp only [Ring.receive, rx, state, searching, good, run]
    split
    · exact resume_congr h _
    · split
      · split
        · simp only [Ring.receiver, alignment]
        · simp only [Ring.record, Ring.receiver, rx, run, misses, alignment, stream]
      · rw [show (r.record align c).stream = (q.record align c).stream by simp only [Ring.record, stream]]
        exact resume_congr h _
  | locked =>
    simp only [Ring.receive, rx, state, good]
    split
    · simp only [Ring.receiver, run, misses, alignment, stream]
    · simp only [Ring.receiver, alignment, stream]
  | suspect =>
    simp only [Ring.receive, rx, state, good, run, misses]
    split
    · split
      · simp only [Ring.receiver, alignment, stream]
      · simp only [Ring.receiver, alignment, stream]
    · split
      · simp only [Ring.receiver, alignment]
      · simp only [Ring.receiver, alignment, stream]

theorem moved_receiver (r : Ring) (align : Fin 1626) (c : RingCycle) :
    (r.moved align c).receiver = (r.receive align c).receiver := by
  unfold Ring.moved Ring.numbered
  split
  · rfl
  · rfl

/-! ### What the move brings -/

theorem captureRingLost_ring (s : State) : s.captureRingLost.ring = s.ring := by
  unfold State.captureRingLost
  split
  · rfl
  · rfl
  · rfl

theorem leaveLocked_ring (s : State) : s.leaveLocked.ring = s.ring := by
  have take (u : State) : u.takeRingLost.ring = u.ring := by
    unfold State.takeRingLost
    split
    · rfl
    · rfl
  rw [State.leaveLocked, take, captureRingLost_ring]
  rfl

theorem enterHunt_ring (s : State) : s.enterHunt.ring = { s.ring with inserts := s.enterHunt.ring.inserts } := by
  have ended := (endCalls_callsFrame (s.post .ringLost 0 0) Call.trunk callRingLost).rest
  exact (congrArg State.ring ended :)

theorem rxChanged_ring (s : State) (before : RxState) :
    (s.rxChanged before).ring = { s.ring with inserts := (s.rxChanged before).ring.inserts } := by
  unfold State.rxChanged
  split
  · rw [leaveLocked_ring]
  · exact enterHunt_ring s
  · rfl
  · rfl

theorem compareTake_ring (s : State) (n : BitVec 16) : (s.compareTake n).ring = s.ring := by
  unfold State.compareTake
  split
  · rfl
  · rfl

theorem afterMove_counted (s : State) (before : RxState) (c : RingCycle) :
    (s.afterMove before c).ring = ((s.rxChanged before).countClashes c.slots).ring := by
  unfold State.afterMove
  dsimp only
  split
  · exact compareTake_ring _ _
  · rfl

/-- After the receiver has moved, the inserts alone change of the ring interface. -/
theorem afterMove_ring (s : State) (before : RxState) (c : RingCycle) :
    (s.afterMove before c).ring = { s.ring with inserts := (s.afterMove before c).ring.inserts } := by
  rw [afterMove_counted]
  have counted (u : State) :
      (u.countClashes c.slots).ring = { u.ring with inserts := (u.countClashes c.slots).ring.inserts } := rfl
  rw [counted, rxChanged_ring]

theorem applySettings_ring (s : State) : s.applySettings.ring = s.ring := by
  unfold State.applySettings
  split
  · rfl
  · rfl

theorem closePeriod_receiver (s : State) : (closePeriod s).ring.receiver = s.ring.receiver := by
  rw [closePeriod_eq, applySettings_ring, (closed_keeps s).receiver]

/-! ### Trunk calls that end, whatever the table holds -/

/-- Whatever the table holds, no call of an ended id is left. -/
theorem endCall_filters (s : State) (id : CallId) (cause : BitVec 4) :
    (s.endCall id cause).icom.calls = s.icom.calls.filter (fun x => x.id != id) := by
  cases h : s.callWith id with
  | none =>
    rw [endCall_none s id cause h, eq_comm, List.filter_eq_self]
    simpa using (callWith_none_iff s id).mp h
  | some c =>
    rw [endCall_of_some h, ← (callWith_some h).2]
    rfl

theorem any_id_eq_false_iff (s : State) (id : CallId) :
    s.icom.calls.any (fun c => c.id == id) = false ↔ s.callWith id = none := by
  rw [callWith_none_iff]
  simp

/-- A call that ends takes its insert with it. -/
theorem endCall_inserts {s : State} {id : CallId} {c : Call} (h : s.callWith id = some c) (cause : BitVec 4) :
    (s.endCall id cause).ring.inserts = s.ring.inserts.filter (fun i => i.source != .trunkCall id) := by
  rw [endCall_of_some h, ← (callWith_some h).2]
  simp only [State.callOver, State.withEvent]

/-- The inserts that are left name no ended call of the table. -/
theorem foldl_endCall_inserts (ids : List CallId) (cause : BitVec 4) (s : State) :
    (ids.foldl (fun s id => s.endCall id cause) s).ring.inserts = s.ring.inserts.filter (fun i =>
      !ids.any (fun id => i.source == .trunkCall id && s.icom.calls.any (fun c => c.id == id))) := by
  induction ids generalizing s with
  | nil => simp
  | cons id rest ih =>
    rw [List.foldl_cons]
    cases found : s.callWith id with
    | none =>
      have absent := (any_id_eq_false_iff s id).mpr found
      rw [endCall_none s id cause found, ih]
      simp [absent]
    | some c =>
      obtain ⟨hc, named⟩ := callWith_some found
      have present : s.icom.calls.any (fun c => c.id == id) = true :=
        List.any_eq_true.mpr ⟨c, hc, by simpa using named⟩
      rw [ih, endCall_inserts found, endCall_filters, List.filter_filter]
      refine List.filter_congr fun i _ => ?_
      rw [List.any_cons, present, Bool.and_true, Bool.not_or, Bool.and_comm]
      by_cases own : i.source = .trunkCall id
      · simp [own]
      · refine congrArg₂ _ rfl (congrArg _ (List.any_congr rfl fun x => ?_))
        by_cases same : x = id
        · have other : (i.source == .trunkCall id) = false := beq_eq_false_iff_ne.mpr own
          rw [same, other, Bool.false_and, Bool.false_and]
        · have others : (s.icom.calls.filter (fun c => c.id != id)).any (fun c => c.id == x) =
              s.icom.calls.any (fun c => c.id == x) := by
            rw [List.any_filter]
            refine List.any_congr rfl fun c => ?_
            by_cases here : c.id = x
            · simp [here, same]
            · simp [here]
          rw [others]

/-- The end of the trunk calls removes their inserts. -/
theorem endCalls_inserts (s : State) (pick : Call → Bool) (cause : BitVec 4) :
    (s.endCalls pick cause).ring.inserts = s.ring.inserts.filter (fun i =>
      !s.icom.calls.any (fun x => pick x && i.source == .trunkCall x.id)) := by
  rw [State.endCalls, foldl_endCall_inserts]
  refine List.filter_congr fun i _ => congrArg _ ?_
  rw [Bool.eq_iff_iff]
  simp only [List.any_map, List.any_filter, List.any_eq_true, Function.comp_apply, Bool.and_eq_true, beq_iff_eq]
  constructor
  · rintro ⟨x, hx, picked, source, -⟩
    exact ⟨x, hx, picked, source⟩
  · rintro ⟨x, hx, picked, source⟩
    exact ⟨x, hx, picked, source, x, hx, rfl⟩

/-! ### What leaving LOCKED does -/

theorem captureRingLost_waiting {s : State} (h : s.clips.capture.phase = .waitingSound ∨ s.clips.capture.phase = .recording) :
    s.captureRingLost = s.dropCapture.withEvent .captureFailed s.clips.capture.clip.val 2 := by
  rw [← post_eq, State.captureRingLost]
  rcases h with h | h
  · rw [h]; rfl
  · rw [h]; rfl

theorem captureRingLost_idle {s : State} (h : s.clips.capture.phase = .idle ∨ s.clips.capture.phase = .closing) :
    s.captureRingLost = s := by
  rw [State.captureRingLost]
  rcases h with h | h
  · rw [h]
  · rw [h]

/-- Starting a waiting TAKE writes the scene alone. -/
theorem takeRingLost_eq (s : State) : s.takeRingLost = { s with scene := s.takeRingLost.scene } := by
  unfold State.takeRingLost
  split
  · rfl
  · rfl

theorem compareTake_eq (s : State) (n : BitVec 16) : s.compareTake n = { s with scene := (s.compareTake n).scene } := by
  unfold State.compareTake
  split
  · rfl
  · rfl

/-- After the receiver has moved, its change and the clash counts are all but the TAKE record. -/
theorem afterMove_eq (s : State) (before : RxState) (c : RingCycle) :
    s.afterMove before c = { (s.rxChanged before).countClashes c.slots with scene := (s.afterMove before c).scene } := by
  unfold State.afterMove
  dsimp only
  split
  · exact compareTake_eq _ _
  · rfl

theorem afterMove_clips (s : State) (before : RxState) (c : RingCycle) :
    (s.afterMove before c).clips = (s.rxChanged before).clips := by rw [afterMove_eq]; rfl

theorem afterMove_ctl (s : State) (before : RxState) (c : RingCycle) :
    (s.afterMove before c).ctl = (s.rxChanged before).ctl := by rw [afterMove_eq]; rfl

theorem afterMove_inserts (s : State) (before : RxState) (c : RingCycle) :
    (s.afterMove before c).ring.inserts = ((s.rxChanged before).countClashes c.slots).ring.inserts := by
  rw [afterMove_counted]

theorem leaveLocked_failed {s : State} (h : s.clips.capture.phase = .waitingSound ∨ s.clips.capture.phase = .recording) :
    s.leaveLocked.ctl = (s.withClearBuffer.withEvent .captureFailed s.clips.capture.clip.val 2).ctl ∧
      s.leaveLocked.clips = { s.clips with
        directory := put s.clips.directory s.clips.capture.clip
          ((s.clips.directory[s.clips.capture.clip]).map (fun e => { e with used := 0, state := .empty }))
        capture := Capture.idle } := by
  rw [State.leaveLocked, takeRingLost_eq, captureRingLost_waiting (s := s.clearBuffer) h]
  exact ⟨rfl, rfl⟩

theorem leaveLocked_quiet {s : State} (h : s.clips.capture.phase = .idle ∨ s.clips.capture.phase = .closing) :
    s.leaveLocked.ctl = s.withClearBuffer.ctl ∧ s.leaveLocked.clips = s.clips := by
  rw [State.leaveLocked, takeRingLost_eq, captureRingLost_idle (s := s.clearBuffer) h]
  exact ⟨rfl, rfl⟩

/-! ### One arrival -/

theorem arrive_moves (s : State) (align : Fin 1626) (c : RingCycle) :
    (s.arrive align c).ring.receiver = (s.ring.receive align c).receiver := by
  rw [arrive_eq, (afterMove_keeps _ _ c).receiver, State.setRing_ring, moved_receiver]

/-- The receiver after an arrival: the cycle moves it, and the close of the period before does not. -/
theorem arrive_receiver (s : State) (align : Fin 1626) (c : RingCycle) :
    ((closePeriod s).arrive align c).ring.receiver = (s.ring.receive align c).receiver := by
  rw [arrive_moves]
  exact receive_congr (closePeriod_receiver s) align c

theorem cycleArrival_read {s : State} {align : Fin 1626} {c : RingCycle} (h : s.ring.reads align c = true) :
    exec (.cycleArrival align c) s = .next ((closePeriod s).arrive align c) :=
  congrArg Host.Outcome.next (if_pos h)

/-- What an arrival leaves of the other fields. -/
theorem arrive_numbered (s : State) (align : Fin 1626) (c : RingCycle) :
    (s.arrive align c).ring.arrived = some c ∧ (s.arrive align c).ring.taps = s.ring.taps ∧
      (s.arrive align c).ring.cycleNumber =
        if s.ring.rx = .hunt ∧ (s.ring.receive align c).rx = .hunt then s.ring.cycleNumber else c.number := by
  have only := receive_receiverOnly s.ring align c
  rw [arrive_eq, afterMove_ring]
  simp only [State.setRing_ring, Ring.moved, Ring.numbered]
  split
  · exact ⟨trivial, only.taps, only.cycleNumber⟩
  · exact ⟨trivial, only.taps, rfl⟩

/-- The control interface and the clip engine follow the change of the receiver's state. -/
theorem arrive_change (s : State) (align : Fin 1626) (c : RingCycle) :
    (s.arrive align c).ctl = ((s.setRing (s.ring.moved align c)).rxChanged s.ring.rx).ctl ∧
      (s.arrive align c).clips = ((s.setRing (s.ring.moved align c)).rxChanged s.ring.rx).clips := by
  rw [arrive_eq, afterMove_ctl, afterMove_clips]
  exact ⟨rfl, rfl⟩

theorem arrive_inserts (s : State) (align : Fin 1626) (c : RingCycle) : (s.arrive align c).ring.inserts =
    (((s.setRing (s.ring.moved align c)).rxChanged s.ring.rx).countClashes c.slots).ring.inserts :=
  afterMove_inserts _ _ c

theorem arrive_rx (s : State) (align : Fin 1626) (c : RingCycle) :
    (s.arrive align c).ring.rx = (s.setRing (s.ring.moved align c)).ring.rx := by
  rw [arrive_eq, afterMove_ring]

theorem moved_rx (r : Ring) (align : Fin 1626) (c : RingCycle) : (r.moved align c).rx = (r.receive align c).rx :=
  ((receiver_eq_iff _ _).mp (moved_receiver r align c)).1

/-- A LOCKED receiver that reads a bad cycle leaves LOCKED. -/
theorem rxChanged_leave {s : State} {align : Fin 1626} {c : RingCycle} (rx : s.ring.rx = .locked)
    (bad : s.ring.good c = false) :
    (s.setRing (s.ring.moved align c)).rxChanged s.ring.rx = (s.setRing (s.ring.moved align c)).leaveLocked := by
  have after : (s.setRing (s.ring.moved align c)).ring.rx = .suspect := by
    rw [State.setRing_ring, moved_rx, receive_locked_bad rx bad]
  simp only [State.rxChanged, after, rx]

theorem moved_inserts (r : Ring) (align : Fin 1626) (c : RingCycle) : (r.moved align c).inserts = r.inserts :=
  received_inserts r align c

theorem moved_number {r : Ring} {align : Fin 1626} {c : RingCycle} (h : r.rx ≠ .hunt) :
    (r.moved align c).cycleNumber = c.number := by
  unfold Ring.moved Ring.numbered
  rw [if_neg fun both => h both.1]

/-- What an event leaves of the control interface. -/
theorem withEvent_ctl_congr {s t : State} (ctl : s.ctl = t.ctl) (number : s.ring.cycleNumber = t.ring.cycleNumber)
    (k : EventKind) (n d : Nat) : (s.withEvent k n d).ctl = (t.withEvent k n d).ctl := by
  simp only [State.withEvent, ctl, number]

/-- Only leaving LOCKED touches the clip engine. -/
theorem rxChanged_clips {s : State} {before : RxState} (h : before ≠ .locked ∨ s.ring.rx ≠ .suspect) :
    (s.rxChanged before).clips = s.clips := by
  unfold State.rxChanged
  split
  · exact (h.elim (fun ne => ne rfl) fun ne => ne ‹_›).elim
  · have ended := (endCalls_callsFrame (s.post .ringLost 0 0) Call.trunk callRingLost).rest
    exact (congrArg State.clips ended :)
  · rfl
  · rfl

/-- A receiver that is LOCKED now has at most posted RING REGAINED. -/
theorem rxChanged_locked {s : State} (h : s.ring.rx = .locked) (before : RxState) :
    (s.rxChanged before).ring = s.ring ∧ (s.rxChanged before).clips = s.clips ∧ (s.rxChanged before).icom = s.icom := by
  cases before with
  | hunt => simp only [State.rxChanged, h]; exact ⟨rfl, rfl, rfl⟩
  | locked => simp only [State.rxChanged, h, and_self]
  | suspect => simp only [State.rxChanged, h, and_self]

/-- Entering HUNT takes the trunk calls' inserts; no other change of state takes one. -/
theorem rxChanged_inserts (s : State) (before : RxState) : (s.rxChanged before).ring.inserts =
    if before = .suspect ∧ s.ring.rx = .hunt then
      s.ring.inserts.filter (fun i => !s.icom.calls.any (fun x => x.trunk && i.source == .trunkCall x.id))
    else s.ring.inserts := by
  unfold State.rxChanged
  split
  · rw [leaveLocked_ring, if_neg (by simp)]
  · rename_i hunt
    rw [if_pos ⟨rfl, hunt⟩]
    exact endCalls_inserts (s.post .ringLost 0 0) Call.trunk callRingLost
  · rw [if_neg (by simp)]
    rfl
  · rename_i other _
    rw [if_neg fun both => other both.1 both.2]

theorem sourceActive_iff (s : State) (x : InsertSource) : s.sourceActive x = true ↔ s.activeSource x := by
  cases x <;> simp [State.sourceActive, State.activeSource]

/-- An empty slot carries the marker. -/
theorem toInt_eq_marker_iff (x : RawSample) : x.toInt = Config.emptyMarker ↔ x = 0x800000 := by
  rw [← BitVec.toInt_inj]
  rfl

theorem countClashes_locked {s : State} (h : s.ring.rx = .locked) (slots : Vector RawSample 64) :
    (s.countClashes slots).ring.inserts = s.ring.inserts.map (fun i =>
      if s.sourceActive i.source then
        { i with clash := if (slots[i.slot]).toInt = Config.emptyMarker then 0 else min 48 (i.clash + 1) }
      else i) := by
  simp only [State.countClashes, State.setRing_ring, heard_locked h, if_true]

theorem countClashes_unlocked {s : State} (h : s.ring.rx ≠ .locked) (slots : Vector RawSample 64) :
    (s.countClashes slots).ring.inserts = s.ring.inserts.map (fun i => { i with clash := 0 }) := by
  simp only [State.countClashes, State.setRing_ring, not_heard h, Bool.false_eq_true, if_false]

theorem leaveLocked_buffer (s : State) : s.leaveLocked.ctl.buffer = RequestBuffer.clear := by
  rw [State.leaveLocked, takeRingLost_eq, State.captureRingLost]
  split
  · exact post_buffer _ _ _ _
  · exact post_buffer _ _ _ _
  · rfl

theorem arrive_settings (s : State) (align : Fin 1626) (c : RingCycle) :
    (s.arrive align c).ctl.settings = s.ctl.settings := (afterMove_keeps _ _ c).settings

/-- Leaving LOCKED fails a capture that is WAITING SOUND or RECORDING. -/
theorem arrive_failing {s : State} {align : Fin 1626} {c : RingCycle} (rx : s.ring.rx = .locked)
    (bad : s.ring.good c = false)
    (phase : s.clips.capture.phase = .waitingSound ∨ s.clips.capture.phase = .recording) :
    (s.arrive align c).ctl = (State.withEvent { s with ring := { s.ring with cycleNumber := c.number } }.withClearBuffer
        .captureFailed s.clips.capture.clip.val 2).ctl ∧
      (s.arrive align c).clips = { s.clips with
        directory := put s.clips.directory s.clips.capture.clip
          ((s.clips.directory[s.clips.capture.clip]).map (fun e => { e with used := 0, state := .empty }))
        capture := Capture.idle } := by
  obtain ⟨ctl, clips⟩ := arrive_change s align c
  have number : (s.setRing (s.ring.moved align c)).ring.cycleNumber = c.number := moved_number (by rw [rx]; decide)
  obtain ⟨failed, dropped⟩ := leaveLocked_failed (s := s.setRing (s.ring.moved align c)) phase
  rw [rxChanged_leave rx bad] at ctl clips
  refine ⟨ctl.trans (failed.trans ?_), clips.trans dropped⟩
  exact withEvent_ctl_congr (s := (s.setRing (s.ring.moved align c)).withClearBuffer)
    (t := State.withClearBuffer { s with ring := { s.ring with cycleNumber := c.number } }) rfl number _ _ _

theorem arrive_leaving {s : State} {align : Fin 1626} {c : RingCycle} (rx : s.ring.rx = .locked)
    (bad : s.ring.good c = false) (phase : s.clips.capture.phase = .idle ∨ s.clips.capture.phase = .closing) :
    (s.arrive align c).ctl = s.withClearBuffer.ctl ∧ (s.arrive align c).clips = s.clips := by
  obtain ⟨ctl, clips⟩ := arrive_change s align c
  obtain ⟨cleared, same⟩ := leaveLocked_quiet (s := s.setRing (s.ring.moved align c)) phase
  rw [rxChanged_leave rx bad] at ctl clips
  exact ⟨ctl.trans cleared, clips.trans same⟩

theorem arrive_clips {s : State} {align : Fin 1626} {c : RingCycle} (h : s.ring.rx ≠ .locked ∨ s.ring.good c = true) :
    (s.arrive align c).clips = s.clips := by
  refine (arrive_change s align c).2.trans (rxChanged_clips ?_)
  by_cases rx : s.ring.rx = .locked
  · refine .inr ?_
    rw [State.setRing_ring, moved_rx, receive_locked_good rx (h.resolve_left fun ne => ne rx), rx]
    decide
  · exact .inl rx

/-- The clash counts of a LOCKED receiver. -/
theorem arrive_locked {s : State} {align : Fin 1626} {c : RingCycle} (h : (s.arrive align c).ring.rx = .locked) :
    (s.arrive align c).ring.inserts = s.ring.inserts.map (fun i =>
      if s.sourceActive i.source then
        { i with clash := if (c.slots[i.slot]).toInt = Config.emptyMarker then 0 else min 48 (i.clash + 1) }
      else i) := by
  rw [arrive_rx] at h
  obtain ⟨ring, clips, icom⟩ := rxChanged_locked h s.ring.rx
  have active (x : InsertSource) :
      ((s.setRing (s.ring.moved align c)).rxChanged s.ring.rx).sourceActive x = s.sourceActive x := by
    cases x with
    | localInput i => rfl
    | zone z => rfl
    | player p => simp only [State.sourceActive, clips]; rfl
    | trunkCall id => simp only [State.sourceActive, icom]; rfl
  rw [arrive_inserts, countClashes_locked (by rw [ring]; exact h), ring, State.setRing_ring, moved_inserts]
  simp only [active]

theorem arrive_clash {s : State} {align : Fin 1626} {c : RingCycle} (h : (s.arrive align c).ring.rx = .locked) {n : Nat}
    {i : Insert} (hi : s.ring.inserts[n]? = some i) :
    (s.activeSource i.source → (s.arrive align c).ring.inserts[n]? =
      some { i with clash := if c.slots[i.slot] = 0x800000 then 0 else min 48 (i.clash + 1) }) ∧
    (¬ s.activeSource i.source → (s.arrive align c).ring.inserts[n]? = some i) := by
  rw [arrive_locked h, List.getElem?_map, hi, Option.map_some]
  refine ⟨fun active => ?_, fun idle => ?_⟩
  · rw [if_pos ((sourceActive_iff s _).mpr active)]
    simp only [toInt_eq_marker_iff]
  · rw [if_neg (mt (sourceActive_iff s _).mp idle)]

/-- Outside LOCKED every count is 0. -/
theorem arrive_unlocked {s : State} {align : Fin 1626} {c : RingCycle} (h : (s.arrive align c).ring.rx ≠ .locked) :
    (s.arrive align c).ring.inserts =
      (if s.ring.rx = .suspect ∧ (s.arrive align c).ring.rx = .hunt then
        s.ring.inserts.filter (fun i => !s.icom.calls.any (fun x => x.trunk && i.source == .trunkCall x.id))
      else s.ring.inserts).map (fun i => { i with clash := 0 }) := by
  rw [arrive_rx] at h ⊢
  have still : ((s.setRing (s.ring.moved align c)).rxChanged s.ring.rx).ring.rx ≠ .locked := by
    rw [rxChanged_ring]; exact h
  rw [arrive_inserts, countClashes_unlocked still, rxChanged_inserts, State.setRing_ring, moved_inserts]
  rfl

end Sys2Proof.Machine

open Sys2Proof Sys2Proof.Machine

/-- Settles O16: the receiver of an arrival is that of `receive`, and the rest follows the change of its state. -/
theorem arrivalsMoveTheReceiver : Obligations.ArrivalsMoveTheReceiver := by
  intro s align c r good shown searching read
  have reads : s.ring.reads align c = true ↔ read := reads_iff s.ring align c
  have good' : s.ring.good c = true ↔ good := good_iff s.ring c
  have bad' : s.ring.good c = false ↔ ¬ good := by rw [← good', Bool.not_eq_true]
  have ignored (h : ¬ read) : exec (.cycleArrival align c) s = .next
      (if s.ring.rx = .hunt ∧ s.ring.searching = false then s.setRing (s.ring.record align c) else s) :=
    congrArg Host.Outcome.next (if_neg (mt reads.mp h))
  have before_good : (closePeriod s).ring.good c = s.ring.good c := by
    rw [Ring.good, ((receiver_eq_iff _ _).mp (closePeriod_receiver s)).2.2.2.2.2, Ring.good]
  have before_rx : (closePeriod s).ring.rx = s.ring.rx := (closePeriod_kept s).rx
  refine ⟨fun unread idle => ?_, fun unread hunt other => ?_, fun h => ?_, fun h => ?_⟩
  · rw [ignored unread, if_neg]
    rintro ⟨hunt, other⟩
    exact idle.elim (fun ne => ne hunt) fun both => by rw [(searching_iff s.ring).mpr both] at other; cases other
  · rw [ignored unread, if_pos ⟨hunt, Bool.eq_false_iff.mpr (mt (searching_iff s.ring).mp other)⟩]
    rfl
  · obtain ⟨rx, run, misses, alignment, stream, number⟩ := (receiver_eq_iff _ _).mp (arrive_receiver s align c)
    obtain ⟨arrived, taps, cycleNumber⟩ := arrive_numbered (closePeriod s) align c
    have kept := closePeriod_kept s
    obtain ⟨moved_rx, -⟩ := (receiver_eq_iff _ _).mp (receive_congr (closePeriod_receiver s) align c)
    rw [kept.rx, moved_rx, ← rx, kept.cycleNumber] at cycleNumber
    refine ⟨(closePeriod s).arrive align c, cycleArrival_read (reads.mpr h), arrived, taps.trans kept.taps,
      (arrive_settings _ align c).trans (closePeriod_settings s).1, ?_⟩
    rw [cycleNumber, number, rx, misses, run, alignment, stream]
    refine ⟨fun out => if_neg ?_, fun before after => if_pos ⟨before, after⟩, ?_⟩
    · rintro ⟨hunt, still⟩
      exact out.elim (fun ne => ne still) fun suspect => by rw [hunt] at suspect; cases suspect
    refine ⟨fun h => receive_number (h.imp id good'.mpr), fun rx g => ?_, fun rx b => ?_, fun rx g run => ?_,
      fun rx g run => ?_, fun rx b misses => ?_, fun rx b misses => ?_, fun search => ?_, fun rx g least most => ?_,
      fun rx g run => ?_, fun rx b run => ?_⟩
    · rw [receive_locked_good rx (good'.mpr g)]
      exact ⟨rx, rfl⟩
    · rw [receive_locked_bad rx (bad'.mpr b), (arrive_change _ align c).1,
        rxChanged_leave (kept.rx.trans rx) (before_good.trans (bad'.mpr b)), leaveLocked_buffer]
      exact ⟨rfl, rfl, rfl, rfl⟩
    · rw [receive_suspect_first rx (good'.mpr g) run]
      exact ⟨rx, rfl, rfl⟩
    · rw [receive_suspect_again rx (good'.mpr g) (by rw [run]; decide)]
      exact ⟨rfl, rfl⟩
    · rw [receive_suspect_miss rx (bad'.mpr b) (by omega)]
      exact ⟨rx, rfl, rfl⟩
    · rw [receive_suspect_lost rx (bad'.mpr b) misses]
      exact ⟨rfl, rfl, rfl, rfl⟩
    · have pattern : c.pattern = 0x3A97 := h.elim And.right fun found => absurd search found.1
      rw [receive_searching search.1 search.2 pattern]
      exact ⟨search.1, rfl, rfl, rfl, rfl⟩
    · rw [receive_counting rx (good'.mpr g) least most]
      exact ⟨rx, rfl, rfl, rfl⟩
    · rw [receive_locking rx (good'.mpr g) (by omega)]
      exact ⟨rfl, rfl, rfl⟩
    · rw [receive_failing rx (bad'.mpr b) run]
      refine ⟨(resume_receiverOnly _ _).2.trans rx, fun before x rest split candidate first => ?_, fun none => ?_⟩
      · obtain ⟨n, resumed, last⟩ := resume_candidate s.ring candidate before first
        have l : (s.ring.stream ++ [seenAt align c]).tail = before ++ x :: rest := split
        rw [l, resumed]
        exact ⟨rfl, rfl, rfl, last⟩
      · rw [resume_none s.ring (s.ring.stream ++ [seenAt align c]).tail none]
        exact ⟨rfl, rfl⟩
  · have run := cycleArrival_read (reads.mpr h)
    obtain ⟨u, closed⟩ : ∃ u, u = closePeriod s := ⟨_, rfl⟩
    rw [← closed] at run before_rx before_good
    refine ⟨u.arrive align c, u, run, closed, fun rx bad => ⟨?_, ?_⟩, fun stays => ?_, fun locked => ?_, fun unlocked => ?_⟩
    · exact arrive_failing (before_rx.trans rx) (before_good.trans (bad'.mpr bad))
    · exact arrive_leaving (before_rx.trans rx) (before_good.trans (bad'.mpr bad))
    · refine arrive_clips ?_
      rw [before_rx, before_good]
      exact stays.imp id good'.mpr
    · exact ⟨by rw [arrive_locked locked, List.length_map], fun n i hi => arrive_clash locked hi⟩
    · rw [arrive_unlocked unlocked, before_rx]

end

section
/-! The loss and the return of the ring, and the alert slot of an arriving cycle. -/

namespace Sys2Proof.Machine

/-! ### The change of the receiver's state -/

theorem arrive_blocks (s : State) (align : Fin 1626) (c : RingCycle) : ∃ ring scene, s.arrive align c =
    { (s.setRing (s.ring.moved align c)).rxChanged s.ring.rx with ring := ring, scene := scene } := by
  rw [arrive_eq, afterMove_eq]
  exact ⟨_, _, rfl⟩

theorem rxChanged_lost {s : State} (h : s.ring.rx = .hunt) : s.rxChanged .suspect = s.enterHunt := by
  simp only [State.rxChanged, h]

theorem rxChanged_regained {s : State} (h : s.ring.rx = .locked) :
    s.rxChanged .hunt = s.withEvent .ringRegained 0 0 := by
  simp only [State.rxChanged, h]
  exact post_eq s .ringRegained 0 0

/-- The calls of the trunk end with the ring, after RING LOST, and a pending reply is gone. -/
theorem enterHunt_ctl {s : State} (h : (s.icom.calls.map (·.id)).Nodup) : s.enterHunt.ctl =
    { ((s.icom.calls.filter Call.trunk).foldl (fun v x => v.withEvent .callEnded x.id.toNat 7)
        (s.withEvent .ringLost 0 0)).ctl with reply := none } := by
  rw [← post_eq]
  exact congrArg (fun x : Control => { x with reply := none }) (endCalls_ctl (s.post .ringLost 0 0) Call.trunk 7 h)

theorem enterHunt_calls {s : State} (h : (s.icom.calls.map (·.id)).Nodup) :
    s.enterHunt.icom.calls = s.icom.calls.filter (fun x => !x.trunk) :=
  endCalls_calls (s.post .ringLost 0 0) Call.trunk 7 h

theorem enterHunt_rest (s : State) : s.enterHunt.pages = s.pages ∧ s.enterHunt.alarm = s.alarm ∧
    s.enterHunt.mix = s.mix := by
  have ended := (endCalls_callsFrame (s.post .ringLost 0 0) Call.trunk callRingLost).rest
  exact ⟨(congrArg State.pages ended :), (congrArg State.alarm ended :), (congrArg State.mix ended :)⟩

/-- Events posted at one node cycle number leave one control interface. -/
theorem foldl_withEvent_ctl_congr {α : Type} (k : EventKind) (n : α → Nat) (d : Nat) (l : List α) {s t : State}
    (ctl : s.ctl = t.ctl) (number : s.ring.cycleNumber = t.ring.cycleNumber) :
    (l.foldl (fun v x => v.withEvent k (n x) d) s).ctl = (l.foldl (fun v x => v.withEvent k (n x) d) t).ctl := by
  induction l generalizing s t with
  | nil => exact ctl
  | cons x rest ih => exact ih (withEvent_ctl_congr ctl number _ _ _) number

theorem losing_iff (r : Ring) (align : Fin 1626) (c : RingCycle) : r.losing align c = true ↔
    r.rx = .suspect ∧ r.missCount = 3 ∧ r.reads align c = true ∧ r.good c = false := by
  simp [Ring.losing, and_assoc]

theorem regaining_iff (r : Ring) (align : Fin 1626) (c : RingCycle) : r.regaining align c = true ↔
    r.rx = .hunt ∧ 7 ≤ r.goodRun ∧ r.reads align c = true ∧ r.good c = true := by
  simp [Ring.regaining, and_assoc]

/-! ### Alert words -/

/-- The fields of an alert word before its hop count stand together. -/
theorem alertFields (w : BitVec 26) : alertKind w ++ alertOrigin w ++ w.extractLsb' 15 3 ++ w.extractLsb' 13 2 ++
    w.extractLsb' 10 3 = w.extractLsb' 10 16 := by
  unfold alertKind alertOrigin
  rw [BitVec.extractLsb'_append_extractLsb'_eq_extractLsb' (by rfl),
    BitVec.extractLsb'_append_extractLsb'_eq_extractLsb' (by rfl),
    BitVec.extractLsb'_append_extractLsb'_eq_extractLsb' (by rfl),
    BitVec.extractLsb'_append_extractLsb'_eq_extractLsb' (by rfl)]

/-- An alert word goes on with its hop count incremented and a new check. -/
theorem alertNextHop_eq (w : BitVec 26) : alertNextHop w =
    (w.extractLsb' 10 16 ++ (w.extractLsb' 4 6 + 1)) ++ alertCheck (w.extractLsb' 10 16 ++ (w.extractLsb' 4 6 + 1)) := by
  rw [← alertFields]
  rfl

theorem alertAccepted_iff (s : State) (w : BitVec 26) : s.alertAccepted w = true ↔
    w.extractLsb' 0 4 = alertCheck (w.extractLsb' 4 22) ∧ (w.extractLsb' 24 2 = 1 ∨ w.extractLsb' 24 2 = 2) ∧
      w.extractLsb' 18 6 ≠ 0 ∧ w.extractLsb' 18 6 ≠ s.ring.address := by
  simp only [State.alertAccepted, alertCheckOk, alertKind, alertOrigin, Bool.and_eq_true, Bool.or_eq_true, beq_iff_eq,
    bne_iff_ne, and_assoc]

theorem alertWordArrival_locked {s : State} (h : s.ring.rx = .locked) (w : BitVec 26) : alertWordArrival w s =
    if s.alertAccepted w then
      if (alertHop w).toNat ≤ 62 then (s.alertWordIn w).putAlert (alertNextHop w) false
      else (s.alertWordIn w).putAlert 0 true
    else s.putAlert 0 true := by
  rw [alertWordArrival, h]

end Sys2Proof.Machine

open Sys2Proof Sys2Proof.Machine

/-- Settles O17: the two changes of the receiver's state that post. -/
theorem ringLostAndRegainedArePosted : Obligations.RingLostAndRegainedArePosted := by
  intro s align c quiet aligned good u
  have good' : s.ring.good c = true ↔ good := good_iff s.ring c
  have arrival (reads : s.ring.reads align c = true) : cycleArrival align c s = s.arrive align c := by
    rw [cycleArrival, if_pos reads, quiet]
  refine ⟨fun suspect misses bad ok => ?_, fun hunt run g => ?_⟩
  · have bad' : s.ring.good c = false := Bool.eq_false_iff.mpr (mt good'.mp bad)
    have reads : s.ring.reads align c = true :=
      (reads_iff s.ring align c).mpr (.inr ⟨fun both => RxState.noConfusion (suspect.symm.trans both.1), aligned⟩)
    have run : exec (.ringLost align c) s = .next (s.arrive align c) := by
      rw [← arrival reads]
      exact congrArg _ (if_pos ((losing_iff _ _ _).mpr ⟨suspect, misses, reads, bad'⟩))
    have rx : (s.arrive align c).ring.rx = .hunt := by
      rw [arrive_rx, State.setRing_ring, moved_rx, receive_suspect_lost suspect bad' misses]
    have number : (s.setRing (s.ring.moved align c)).ring.cycleNumber = c.number :=
      moved_number (by rw [suspect]; decide)
    obtain ⟨ring, scene, blocks⟩ := arrive_blocks s align c
    rw [suspect, rxChanged_lost (by rwa [arrive_rx] at rx)] at blocks
    obtain ⟨pages, alarm, mix⟩ := enterHunt_rest (s.setRing (s.ring.moved align c))
    refine ⟨s.arrive align c, run, rx, ?_, ?_, fun x hx trunk i hi => ?_, ?_, ?_, ?_⟩
    · have ctl : (s.arrive align c).ctl = (s.setRing (s.ring.moved align c)).enterHunt.ctl := by rw [blocks]
      rw [ctl, enterHunt_ctl (s := s.setRing (s.ring.moved align c)) ok.idsApart]
      refine congrArg (fun x : Control => { x with reply := none }) (foldl_withEvent_ctl_congr _ _ _ _
        (s := (s.setRing (s.ring.moved align c)).withEvent .ringLost 0 0) (t := u.withEvent .ringLost 0 0) ?_ number)
      exact withEvent_ctl_congr (s := s.setRing (s.ring.moved align c)) (t := u) rfl number _ _ _
    · rw [blocks]
      exact enterHunt_calls (s := s.setRing (s.ring.moved align c)) ok.idsApart
    · rw [arrive_unlocked (by rw [rx]; decide), if_pos ⟨suspect, rx⟩] at hi
      obtain ⟨j, hj, rfl⟩ := List.mem_map.mp hi
      have left := (List.mem_filter.mp hj).2
      intro source
      have taken : s.icom.calls.any (fun x => x.trunk && j.source == .trunkCall x.id) = true :=
        List.any_eq_true.mpr ⟨x, hx, by simpa using ⟨trunk, source⟩⟩
      rw [taken] at left
      cases left
    · rw [blocks]; exact pages
    · rw [blocks]; exact alarm
    · rw [blocks]; exact mix
  · have reads : s.ring.reads align c = true :=
      (reads_iff s.ring align c).mpr (.inr ⟨fun both => by have := run.symm.trans both.2; omega, aligned⟩)
    have run' : exec (.ringRegained align c) s = .next (s.arrive align c) := by
      rw [← arrival reads]
      exact congrArg _ (if_pos ((regaining_iff _ _ _).mpr ⟨hunt, by omega, reads, good'.mpr g⟩))
    have receive := receive_locking (align := align) hunt (good'.mpr g) (by omega)
    have rx : (s.arrive align c).ring.rx = .locked := by
      rw [arrive_rx, State.setRing_ring, moved_rx, receive]
    have number : (s.setRing (s.ring.moved align c)).ring.cycleNumber = c.number := by
      simp only [State.setRing_ring, Ring.moved, Ring.numbered, receive, hunt, reduceCtorEq, and_false, if_false]
    obtain ⟨ring, scene, blocks⟩ := arrive_blocks s align c
    rw [hunt, rxChanged_regained (by rwa [arrive_rx] at rx)] at blocks
    refine ⟨s.arrive align c, run', rx, ?_, ?_, ?_, ?_, ?_, ?_, ?_⟩
    · rw [((receiver_eq_iff _ _).mp (arrive_moves s align c)).2.2.1, receive]
    · rw [blocks]
      exact withEvent_ctl_congr (s := s.setRing (s.ring.moved align c)) (t := u) rfl number _ _ _
    all_goals rw [blocks]; rfl

/-- Settles O18: the alert slot by the steps of R20 and R22, and the report of a clashing insert. -/
theorem alertSlotsAndSlotClash : Obligations.AlertSlotsAndSlotClash := by
  refine ⟨fun body => checkOf_eq 0x3 body, fun s => ⟨fun w => ?_, fun w rest free named list => ?_,
    fun slot i found clash fresh => ?_, fun slot i found reported => ?_⟩⟩
  · intro kind origin hop accepted free
    have accepts : s.alertAccepted w = true ↔ accepted := alertAccepted_iff s w
    have exec_eq : exec (.alertWordArrival w) s = .next (alertWordArrival w s) := rfl
    rw [exec_eq]
    refine ⟨fun hunt => ?_, fun suspect => ?_, fun locked refused => ?_, fun locked ok low => ?_, fun locked ok last => ?_⟩
    · rw [alertWordArrival, hunt]
    · rw [alertWordArrival, suspect]
      rfl
    · rw [alertWordArrival_locked locked, if_neg (mt accepts.mp refused)]
      rfl
    · rw [alertWordArrival_locked locked, if_pos (accepts.mpr ok), if_pos (show (alertHop w).toNat ≤ 62 from low)]
      exact ⟨_, rfl, rfl, alertNextHop_eq w⟩
    · have high : ¬ (alertHop w).toNat ≤ 62 := by
        change ¬ hop.toNat ≤ 62
        rw [last]
        decide
      rw [alertWordArrival_locked locked, if_pos (accepts.mpr ok), if_neg high]
      exact ⟨_, rfl, rfl, rfl⟩
  · change Host.Outcome.next (alertSend s) = _
    rw [alertSend, if_pos ⟨free, named⟩, list]
    rfl
  · change Host.Outcome.next (slotClash slot s) = _
    rw [slotClash, found]
    simp only [clash, Nat.le_refl, fresh, and_self, if_true]
    rw [← post_eq]
    cases i.source <;> rfl
  · change Host.Outcome.next (slotClash slot s) = _
    rw [slotClash, found]
    exact congrArg _ (if_neg fun both => by rw [reported] at both; cases both.2)

end

section
/-! Requests that replace settings of ports, routes, zones and feed pairs, and the events of a feed pair. -/

namespace Sys2Proof.Machine

/-! ### Ports -/

theorem setPort_words (s : State) (output offset : Bool) :
    setPort [word output.toNat, word offset.toNat] s = .ok (s.setPorts
      (if output then { s.ports with outFormat := if offset then .offset else .twos }
      else { s.ports with inFormat := if offset then .offset else .twos })) := by
  simp only [setPort, flagWord_word]

theorem setInput_words (s : State) (i : Fin 32) (trim : Fin 4) (r : InputRole) :
    setInput [word i.val, word trim.val, inputWord r] s =
      if s.senseTaken i r then .refuse .conflict s
      else .ok ((changedSenses (s.ports.inputs[i]).role r).foldl State.senseChanged
        (s.setPorts { s.ports with inputs := put s.ports.inputs i { trim := trim, role := r } })) := by
  simp only [setInput, wordIndex_word i (by decide), wordIndex_word trim (by decide), inputRole_word]

theorem setChannel_words (s : State) (c : Fin 32) (r : ChannelRole) :
    setChannel [word c.val, channelWord r] s =
      if s.channelInUse c r then .refuse .inUse s
      else .ok (s.setPorts { s.ports with channels := put s.ports.channels c r }) := by
  simp only [setChannel, wordIndex_word c (by decide), channelRole_word]

theorem senseTaken_iff (s : State) (i : Fin 32) (r : InputRole) :
    s.senseTaken i r = true ↔ ∃ j : Fin 32, j ≠ i ∧ r ≠ .line ∧ (s.ports.inputs[j]).role = r := by
  cases r with
  | line => simp [State.senseTaken]
  | sense z p => simp [State.senseTaken]

theorem channelInUse_iff (s : State) (c : Fin 32) (r : ChannelRole) : s.channelInUse c r = true ↔
    ∃ (p : Fin 32) (e : Station), s.icom.table[p] = some e ∧ e.speaker = c ∧ r ≠ .station p := by
  simp only [State.channelInUse, List.any_eq_true, mem_indices, true_and, Bool.and_eq_true, Option.any_eq_true,
    beq_iff_eq, bne_iff_ne]
  constructor
  · rintro ⟨p, ⟨e, he, speaker⟩, other⟩
    exact ⟨p, e, he, speaker, other⟩
  · rintro ⟨p, e, he, speaker, other⟩
    exact ⟨p, ⟨e, he, speaker⟩, other⟩

theorem mem_changedSenses (old new : InputRole) (z : Fin 24) :
    z ∈ changedSenses old new ↔ old ≠ new ∧ (senseZone old = some z ∨ senseZone new = some z) := by
  unfold changedSenses
  by_cases same : old = new
  · simp [same]
  · rw [if_neg same]
    cases old with
    | line =>
      cases new with
      | line => exact absurd rfl same
      | sense y q => simp [senseZone, eq_comm]
    | sense x p =>
      cases new with
      | line => simp [senseZone, eq_comm]
      | sense y q =>
        by_cases zone : x = y
        · subst zone
          have : p ≠ q := fun h => same (by rw [h])
          simp [senseZone, this, eq_comm]
        · simp [senseZone, zone, eq_comm]

/-- Each changed sense zone restarts its block, once or twice. -/
theorem foldl_senseChanged (l : List (Fin 24)) (s : State) : l.foldl State.senseChanged s =
    s.setTrackers (mapTable (fun z (x : ZoneTracker) => if z ∈ l then x.restart else x) s.trackers) := by
  induction l generalizing s with
  | nil =>
    have same : mapTable (fun z (x : ZoneTracker) => if z ∈ ([] : List (Fin 24)) then x.restart else x) s.trackers =
        s.trackers := by
      apply table_ext
      intro z
      rw [mapTable_get, if_neg List.not_mem_nil]
    rw [same]
    rfl
  | cons y rest ih =>
    rw [List.foldl_cons, ih]
    refine congrArg s.setTrackers ?_
    apply table_ext
    intro z
    rw [mapTable_get, mapTable_get, State.senseChanged, State.setTrackers_trackers, put_get]
    by_cases own : z = y
    · subst own
      rw [if_pos rfl, if_pos (List.mem_cons_self)]
      split
      · rfl
      · rfl
    · rw [if_neg own]
      simp only [List.mem_cons, own, false_or]

/-! ### Routes -/

theorem routeRole_word (b : Bool) : routeRole (word b.toNat) = some (if b then .showAudio else .programme) := by
  cases b <;> rfl

theorem writtenBank_eq (s : State) : s.writtenBank =
    if (s.ctl.incoming.getD s.ctl.settings).writeMode = .direct then s.scene.active else s.scene.active.other := by
  unfold State.writtenBank State.writeMode
  split
  · rw [if_pos ‹_›]
  · rename_i staged
    rw [if_neg (by rw [staged]; decide)]

theorem writeBusy_iff (s : State) : s.writeBusy = true ↔
    (s.ctl.incoming.getD s.ctl.settings).writeMode = .staged ∧ s.scene.state ≠ .idle := by
  simp [State.writeBusy, State.writeMode]

theorem loadRoute_words (s : State) (z : Fin 24) (src : RouteSource) (gain : Word16) (b : Bool) :
    loadRoute [word z.val, routeWord src, gain, word b.toNat] s =
      if s.writeBusy then .refuse .busy s
      else if (s.mix.bank s.writtenBank).holds z src = false ∧ 256 ≤ (s.mix.bank s.writtenBank).routes.length then
        .refuse .full s
      else .ok (s.setBank s.writtenBank ((s.mix.bank s.writtenBank).load
        { zone := z, source := src, gain := gain.toNat, role := if b then .showAudio else .programme })) := by
  simp only [loadRoute, wordIndex_word z (by decide), routeSource_word, routeRole_word]

theorem clearRoute_words (s : State) (z : Fin 24) (src : RouteSource) :
    clearRoute [word z.val, routeWord src] s =
      if s.writeBusy then .refuse .busy s
      else if (s.mix.bank s.writtenBank).holds z src = false then .refuse .notFound s
      else .ok (s.setBank s.writtenBank ((s.mix.bank s.writtenBank).clear z src)) := by
  simp only [clearRoute, wordIndex_word z (by decide), routeSource_word]

theorem hasKey_iff (r : Route) (z : Fin 24) (src : RouteSource) : r.hasKey z src = true ↔ r.zone = z ∧ r.source = src := by
  simp [Route.hasKey]

theorem holds_eq_true_iff (b : Bank) (z : Fin 24) (src : RouteSource) :
    b.holds z src = true ↔ ∃ r ∈ b.routes, r.zone = z ∧ r.source = src := by
  simp only [Bank.holds, List.any_eq_true, hasKey_iff]

theorem holds_eq_false_iff (b : Bank) (z : Fin 24) (src : RouteSource) :
    b.holds z src = false ↔ ∀ r ∈ b.routes, ¬ (r.zone = z ∧ r.source = src) := by
  simp only [Bank.holds, List.any_eq_false, hasKey_iff]

end Sys2Proof.Machine

open Sys2Proof Sys2Proof.Machine

/-- Settles O22: the decoded words, the two refusals, and the trackers of the changed sense zones. -/
theorem portRequestsReplaceOneSetting : Obligations.PortRequestsReplaceOneSetting := by
  intro s a low
  refine ⟨fun output offset asked => ?_, fun i trim r asked => ⟨fun taken => ?_, fun free => ?_⟩,
    fun c r asked => ⟨fun used => ?_, fun free => ?_⟩⟩
  · rw [exec_asked (i := .setPort a low) (owner := setPort) rfl rfl asked, setPort_words, consume_ok]
    rfl
  · rw [exec_asked (i := .setInput a low) (owner := setInput) rfl rfl asked, setInput_words,
      if_pos ((senseTaken_iff s i r).mpr taken), consume_refuse]
  · rw [exec_asked (i := .setInput a low) (owner := setInput) rfl rfl asked, setInput_words,
      if_neg (mt (senseTaken_iff s i r).mp free), consume_ok, foldl_senseChanged]
    simp only [mem_changedSenses]
    rfl
  · rw [exec_asked (i := .setChannel a low) (owner := setChannel) rfl rfl asked, setChannel_words,
      if_pos ((channelInUse_iff s c r).mpr used), consume_refuse]
  · rw [exec_asked (i := .setChannel a low) (owner := setChannel) rfl rfl asked, setChannel_words,
      if_neg (mt (channelInUse_iff s c r).mp free), consume_ok]
    rfl

/-- Settles O26: the entries of a key in the written bank. -/
theorem routeRequestsWriteOneEntry : Obligations.RouteRequestsWriteOneEntry := by
  intro s a low z src mode id b busy key
  have written : s.writtenBank = id := writtenBank_eq s
  have busy' : s.writeBusy = true ↔ busy := writeBusy_iff s
  refine ⟨fun gain shown asked => ?_, fun asked => ?_⟩
  · intro x
    rw [exec_asked (i := .loadRoute a low) (owner := loadRoute) rfl rfl asked, loadRoute_words, written]
    refine ⟨fun h => ?_, fun h none long => ?_, fun h none room => ?_, fun h some => ?_⟩
    · rw [if_pos (busy'.mpr h), consume_refuse]
    · rw [if_neg (mt busy'.mp h), if_pos ⟨(holds_eq_false_iff b z src).mpr none, long⟩, consume_refuse]
    · have absent := (holds_eq_false_iff b z src).mpr none
      rw [if_neg (mt busy'.mp h), if_neg (fun both => by have := both.2; change 256 ≤ b.routes.length at this; omega),
        consume_ok, Bank.load, if_neg (by rw [absent]; decide)]
      rfl
    · have present := (holds_eq_true_iff b z src).mpr some
      refine ⟨b.routes.map (fun r => if r.hasKey z src then x else r), ?_, List.length_map _, fun n r hr => ?_⟩
      · rw [if_neg (mt busy'.mp h), if_neg (fun both => by rw [present] at both; cases both.1), consume_ok, Bank.load,
          if_pos present]
        rfl
      · rw [List.getElem?_map, hr, Option.map_some]
        refine ⟨fun own => ?_, fun other => ?_⟩
        · rw [if_pos ((hasKey_iff r z src).mpr own)]
        · rw [if_neg (mt (hasKey_iff r z src).mp other)]
  · rw [exec_asked (i := .clearRoute a low) (owner := clearRoute) rfl rfl asked, clearRoute_words, written]
    refine ⟨fun h => ?_, fun h none => ?_, fun h some => ?_⟩
    · rw [if_pos (busy'.mpr h), consume_refuse]
    · rw [if_neg (mt busy'.mp h), if_pos ((holds_eq_false_iff b z src).mpr none), consume_refuse]
    · rw [if_neg (mt busy'.mp h), if_neg (by rw [(holds_eq_true_iff b z src).mpr some]; decide), consume_ok]
      rfl

end

section
/-! Requests on zones, scenes and feed pairs, and the events of a feed pair. -/

namespace Sys2Proof.Machine

/-! ### Zones -/

theorem staged_of_not_direct {mode : WriteMode} (h : ¬ mode = .direct) : mode = .staged := by
  cases mode with
  | staged => rfl
  | direct => exact absurd rfl h

theorem not_writeBusy_of_direct {s : State} (direct : (s.ctl.incoming.getD s.ctl.settings).writeMode = .direct) :
    ¬ s.writeBusy = true := by
  intro busy
  have staged := ((writeBusy_iff s).mp busy).1
  rw [direct] at staged
  cases staged

theorem setZone_words (s : State) (z : Fin 24) {mode h : Word16} {m : ZoneMode} (words : modeWords mode h m)
    (master depth attack release : Word16) :
    setZone [word z.val, mode, h, master, depth, attack, release] s =
      if s.writeBusy then .refuse .busy s
      else .ok (s.writeZone z (zoneBankOf m master.toNat depth.toNat attack.toNat release.toNat)) := by
  simp only [setZone, wordIndex_word z (by decide), zoneMode_words m mode h words]

theorem setZoneLocal_words (s : State) (z : Fin 24) (level step limit : Word16) :
    setZoneLocal [word z.val, level, step, limit] s = .ok (s.setMix { s.mix with
      zoneLocal := put s.mix.zoneLocal z (zoneLocalOf level.toNat step.toNat limit.toNat) }) := by
  simp only [setZoneLocal, wordIndex_word z (by decide)]

theorem readZone_words (s : State) (z : Fin 24) : readZone [word z.val] s = .report s (s.zoneWords z) := by
  simp only [readZone, wordIndex_word z (by decide)]

theorem zoneMode_word (m : ZoneMode) : BitVec.ofNat 16 m.word =
    match m with
    | .normal => word 0
    | .showLocked h => word (1 + 256 * h)
    | .off => word 2 := by
  cases m <;> rfl

theorem scene_word (bank : BankId) (n : Nat) :
    BitVec.ofNat 16 (n + 256 * bank.code) = word (n + if bank = .b then 256 else 0) := by
  cases bank <;> rfl

/-! ### Scenes -/

theorem takeOwner_words (s : State) (length : Word16) (target : Option Word16) :
    takeOwner (length :: target.toList) s =
      if s.scene.state = .idle then { state := s.beginTake length.toNat target, status := .accepted, reply := [] }
      else .refuse .busy s := by
  cases target <;> rfl

theorem beginTake_eq (s : State) (length : Nat) (target : Option (BitVec 16)) : s.beginTake length target =
    { s with scene := { s.scene with
      state := .waiting, length := min 4800 length, target := target
      start := if target = none then .now else .no, lastDone := false } } := by
  cases target <;> rfl

/-- A universal TAKE executes with the buffer as it stands, and is forwarded. -/
theorem exec_take_universal {s : State} (low : BitVec 8) (locked : s.ring.rx = .locked) :
    exec (.take 0 low) s = .next ((examine takeOwner s).state.forwardClose 0 0x28 low) := by
  rw [exec_request (i := .take 0 low) rfl, closeAny, if_pos (heard_locked locked), if_pos rfl]
  rfl

/-! ### Feed pairs -/

theorem feedWord_word (f : Fin 4) (auto : Bool) : feedWord (word (f.val + if auto then 256 else 0)) = some (f, auto) := by
  cases auto with
  | false =>
    rw [feedWord, if_neg (by decide), Nat.add_zero, wordIndex_word f (by decide)]
  | true =>
    have high : (word (f.val + 256)).toNat = f.val + 256 := word_toNat_of_lt _ (by omega)
    rw [feedWord, if_pos rfl, wordIndex_none (by omega), Nat.add_comm, codedIndex_word f (by decide)]

theorem setFeed_words (s : State) (f : Fin 4) (auto : Bool) (main backup : Fin 64) {delay hi lo : Word16}
    (range : hi.toNat ≤ 127) :
    setFeed [word (f.val + if auto then 256 else 0), word main.val, word backup.val, delay, hi, lo] s =
      .ok (s.setFeed f (feedOf main backup delay.toNat auto (wide hi lo))) := by
  simp only [setFeed, feedWord_word, wordIndex_word main (by decide), wordIndex_word backup (by decide),
    if_neg (show ¬ 127 < hi.toNat by omega)]

theorem revertFeed_word (s : State) (f : Fin 4) : revertFeed [word f.val] s =
    if (s.feeds[f]).state = .onMain then .ok s
    else if s.mainEmpty s.feeds[f] then .refuse .notAllowed s
    else .ok (s.changeFeed f .onMain) := by
  simp only [revertFeed, wordIndex_word f (by decide)]

theorem mainEmpty_iff (s : State) (x : Feed) : s.mainEmpty x = true ↔ s.tap x.main = -8388608 := beq_iff_eq

theorem backupEmpty_iff (s : State) (x : Feed) : s.backupEmpty x = true ↔ s.tap x.backup = -8388608 := beq_iff_eq

/-- The number a FEED CHANGED event gives a state. -/
def FeedState.number : FeedState → Nat
  | .onMain => 1
  | .onBackup => 2
  | .bothLost => 3

theorem changeFeed_eq (s : State) (f : Fin 4) (st : FeedState) : s.changeFeed f st = State.withEvent
    { s with feeds := put s.feeds f { s.feeds[f] with
      state := st, selectedEmpty := 0, bothEmpty := 0, mainPresent := 0 } } .feedChanged f.val st.number := by
  rw [← post_eq]
  cases st <;> rfl

section Changeover

variable {s : State} {x : Feed}

theorem changeover_onMain (state : x.state = .onMain) (delay : x.delay ≤ x.selectedEmpty)
    (present : ¬ s.tap x.backup = -8388608) : s.changeover x = some .onBackup := by
  rw [State.changeover, if_pos delay, state]
  exact if_neg (mt (backupEmpty_iff s x).mp present)

theorem changeover_onBackup (state : x.state = .onBackup) (delay : x.delay ≤ x.selectedEmpty)
    (present : ¬ s.tap x.main = -8388608) : s.changeover x = some .onMain := by
  rw [State.changeover, if_pos delay, state]
  exact if_neg (mt (mainEmpty_iff s x).mp present)

theorem changeover_none (main : s.tap x.main = -8388608) (backup : s.tap x.backup = -8388608) :
    s.changeover x = none := by
  unfold State.changeover
  split
  · split
    · exact if_pos ((backupEmpty_iff s x).mpr backup)
    · exact if_pos ((mainEmpty_iff s x).mpr main)
    · rfl
  · rfl

end Changeover

/-- The end of a mismatch block, by whether it qualifies, whether it has counted over 48, and the flag before it. -/
theorem mismatchBlockEnd_done {s : State} {f : Fin 4} {qualifies many mismatch : Bool}
    (done : (s.feeds[f]).blockDone = true) (whole : (s.feeds[f]).qualifies = qualifies)
    (count : decide (48 < (s.feeds[f]).blockCount) = many) (flag : (s.feeds[f]).mismatch = mismatch) :
    mismatchBlockEnd f s =
      let t := s.setFeed f { s.feeds[f] with
        mismatch := if qualifies then many else mismatch
        blockPos := 1, qualifies := true, blockCount := 0, blockDone := false }
      if qualifies && many && !mismatch then t.withEvent .feedMismatch f.val 0 else t := by
  have posted (t : State) : t.post .feedMismatch (BitVec.ofNat 16 f.val) 0 = t.withEvent .feedMismatch f.val 0 :=
    post_eq t _ _ 0
  simp only [mismatchBlockEnd, done, if_true, posted, whole, count, flag]

end Sys2Proof.Machine

open Sys2Proof Sys2Proof.Machine

/-- Settles O27: the clamps are those of the model; a change of mode is handed to the scheduler. -/
theorem zoneRequestsWriteClampedFields : Obligations.ZoneRequestsWriteClampedFields := by
  intro s a low z
  refine ⟨fun mode h master depth attack release m words asked => ?_, fun level step limit asked => ?_, fun asked => ?_⟩
  · intro direct id b f t
    have written : s.writtenBank = id := writtenBank_eq s
    have fields : zoneBankOf m master.toNat depth.toNat attack.toNat release.toNat = f := rfl
    have wrote : s.writeZone z f = if direct ∧ (b.fields[z]).mode ≠ m then t.handScheduler else t := by
      rw [State.writeZone, written]
      rfl
    rw [exec_asked (i := .setZone a low) (owner := setZone) rfl rfl asked, setZone_words s z words, fields]
    refine ⟨fun staged busy => ?_, fun staged idle => ?_, fun live same => ?_, fun live other ok => ?_⟩
    · have busy : s.writeBusy = true := (writeBusy_iff s).mpr ⟨staged_of_not_direct staged, busy⟩
      rw [if_pos busy, consume_refuse]
    · have free : ¬ s.writeBusy = true := fun h => ((writeBusy_iff s).mp h).2 idle
      rw [if_neg free, consume_ok, wrote, if_neg (fun h => staged h.1)]
    · rw [if_neg (not_writeBusy_of_direct live), consume_ok, wrote, if_neg (fun h => h.2 same)]
    · have handed : t.handScheduler = t.afterHandOff := handScheduler_eq (s := t) ok.idsApart
      rw [if_neg (not_writeBusy_of_direct live), consume_ok, wrote, if_pos ⟨live, other⟩, handed]
  · rw [exec_asked (i := .setZoneLocal a low) (owner := setZoneLocal) rfl rfl asked, setZoneLocal_words, consume_ok,
      zoneLocalOf, Nat.min_comm (min 8 limit.toNat)]
    rfl
  · rw [exec_asked (i := .readZone a low) (owner := readZone) rfl rfl asked, readZone_words, consume_report,
      State.zoneWords, zoneMode_word, scene_word]
    rfl

/-- Settles O28: the TAKE record is IDLE or the request is refused. -/
theorem takeAndCopyBankFollowTheTakeRecord : Obligations.TakeAndCopyBankFollowTheTakeRecord := by
  refine fun s a low => ⟨fun length target => ?_, fun asked => ?_⟩
  · intro ws t sent
    refine ⟨fun asked => ?_, fun locked buffer => ?_⟩
    · rw [exec_asked (i := .take a low) (owner := takeOwner) rfl rfl asked, takeOwner_words, beginTake_eq]
      split
      · rfl
      · rfl
    · rw [exec_take_universal low locked, examine_clear _ buffer, takeOwner_words, beginTake_eq]
      split
      · rfl
      · rfl
  · rw [exec_asked (i := .copyBank a low) (owner := copyBank) rfl rfl asked, copyBank]
    split
    · rfl
    · rfl

/-- Settles O30. -/
theorem feedRequestsFollowTheirTables : Obligations.FeedRequestsFollowTheirTables := by
  intro s a low f
  refine ⟨fun auto main backup delay hi lo range asked => ?_, fun asked => ?_⟩
  · rw [exec_asked (i := .setFeed a low) (owner := setFeed) rfl rfl asked, setFeed_words s f auto main backup range,
      consume_ok]
    rfl
  · intro x empty
    rw [exec_asked (i := .revertFeed a low) (owner := revertFeed) rfl rfl asked, revertFeed_word]
    refine ⟨fun main => ?_, fun other gone => ?_, fun other present => ?_⟩
    · rw [if_pos main, consume_ok]
    · rw [if_neg other, if_pos ((mainEmpty_iff s x).mpr gone), consume_refuse]
    · rw [if_neg other, if_neg (mt (mainEmpty_iff s x).mp present), consume_ok, changeFeed_eq]
      rfl

/-- Settles O31: each change of a pair with its condition, and the four ends of a block. -/
theorem feedEventsChangeOnePair : Obligations.FeedEventsChangeOnePair := by
  intro s f x mainEmpty backupEmpty changed
  have change (st : FeedState) : s.changeFeed f st = changed st st.number := changeFeed_eq s f st
  refine ⟨fun state delay present => ?_, fun state delay present => ?_, fun state main backup delay => ?_,
    fun state auto run => ?_, fun done => ?_⟩
  · change Host.Outcome.next (feedChangeover f s) = _
    rw [feedChangeover, changeover_onMain state delay present]
    exact congrArg _ (change .onBackup)
  · change Host.Outcome.next (feedChangeover f s) = _
    rw [feedChangeover, changeover_onBackup state delay present]
    exact congrArg _ (change .onMain)
  · change Host.Outcome.next (feedBothLost f s) = _
    rw [feedBothLost, if_pos ⟨state, changeover_none main backup, delay⟩]
    exact congrArg _ (change .bothLost)
  · change Host.Outcome.next (feedAutoRevert f s) = _
    rw [feedAutoRevert, if_pos ⟨state, auto, le_of_eq run.symm⟩]
    exact congrArg _ (change .onMain)
  · intro next
    have exec_eq : exec (.mismatchBlockEnd f) s = .next (mismatchBlockEnd f s) := rfl
    rw [exec_eq]
    refine ⟨fun broken => ?_, fun whole few => ?_, fun whole many before => ?_, fun whole many before => ?_⟩
    · rw [mismatchBlockEnd_done done broken rfl rfl]
      rfl
    · rw [mismatchBlockEnd_done done whole (decide_eq_false (not_lt.mpr few)) rfl]
      rfl
    · rw [mismatchBlockEnd_done done whole (decide_eq_true many) before]
      rfl
    · rw [mismatchBlockEnd_done done whole (decide_eq_true many) before]
      rfl

end

section
/-! The requests on the clip directory and the capture unit, and how a recording ends. -/

namespace Sys2Proof.Machine

/-! ### The directory -/

theorem referenced_iff (s : State) (c : Fin 256) : s.referenced c = true ↔
    ∃ p ∈ s.pages.queue, p.chime = some c ∨ ∃ l, p.source = .clips l ∧ c ∈ l := by
  rw [State.referenced, List.any_eq_true]
  refine exists_congr fun p => and_congr_right fun _ => ?_
  rw [Bool.or_eq_true, beq_iff_eq]
  refine or_congr_right ?_
  cases p.source with
  | clips l => simp
  | liveSlot t => simp
  | liveInput q => simp

theorem clipCapturing_iff (s : State) (c : Fin 256) : s.clipCapturing c = true ↔
    ∃ e, s.clips.directory[c] = some e ∧ e.state = .capturing := by
  simp only [State.clipCapturing, Option.any_eq_true, beq_iff_eq]

theorem regionClash_iff (s : State) (c : Fin 256) (start len : Nat) : s.regionClash c start len = true ↔
    4194304 < start + len ∨ ∃ (d : Fin 256) (e : ClipEntry), d ≠ c ∧ s.clips.directory[d] = some e ∧
      start < e.start + e.region ∧ e.start < start + len := by
  have clash (e : ClipEntry) : regionsOverlap start len e.start e.region = true ↔
      start < e.start + e.region ∧ e.start < start + len := by
    rw [regionsOverlap, Bool.and_eq_true, decide_eq_true_iff, decide_eq_true_iff]
  rw [State.regionClash, Bool.or_eq_true, List.any_eq_true, decide_eq_true_iff]
  simp only [mem_indices, true_and, Bool.and_eq_true, bne_iff_ne, Option.any_eq_true, clash, exists_and_left,
    Config.clipMemoryWords]

theorem defineClip_words (s : State) (c : Fin 256) (honour : Bool) {hi lo lenHi lenLo trim : Word16}
    (range : hi.toNat ≤ 63) (nonempty : 1 ≤ wide lenHi lenLo) (fits : wide lenHi lenLo ≤ 4194304) :
    defineClip [word c.val, hi, lo, lenHi, lenLo, word honour.toNat, trim] s =
      if s.clipCapturing c then .refuse .busy s
      else if s.referenced c then .refuse .inUse s
      else if s.regionClash c (wide hi lo) (wide lenHi lenLo) then .refuse .overlap s
      else .ok (s.define c (wide hi lo) (wide lenHi lenLo) honour trim.toNat) := by
  have inside : ¬ (63 < hi.toNat ∨ wide lenHi lenLo = 0 ∨ Config.clipMemoryWords < wide lenHi lenLo) := by
    rw [Config.clipMemoryWords]
    omega
  simp only [defineClip, wordIndex_word c (by decide), flagWord_word, if_neg inside]

theorem define_same {s : State} {c : Fin 256} {e : ClipEntry} (h : s.clips.directory[c] = some e) (honour : Bool)
    (trim : Nat) : s.define c e.start e.region honour trim =
      s.setEntry c (some { e with honour := honour, trim := trim }) := by
  simp only [State.define, h, and_self, if_true]

/-- An entry whose region is new is EMPTY, and a write for it is discarded. -/
theorem define_new {s : State} {c : Fin 256} {start len : Nat}
    (new : ∀ e, s.clips.directory[c] = some e → e.start ≠ start ∨ e.region ≠ len) (honour : Bool) (trim : Nat) :
    s.define c start len honour trim = (s.setEntry c (some
      { start := start, region := len, used := 0, state := .empty, honour := honour, trim := trim })).discardWrite c := by
  unfold State.define
  split
  · next e entry =>
    exact if_neg (fun same => (new e entry).elim (· same.1) (· same.2))
  · rfl

theorem deleteClip_word (s : State) (c : Fin 256) : deleteClip [word c.val] s =
    if (s.clips.directory[c]).isNone then .refuse .notFound s
    else if s.clipCapturing c then .refuse .busy s
    else if s.referenced c then .refuse .inUse s
    else .ok ((s.setEntry c none).discardWrite c) := by
  simp only [deleteClip, wordIndex_word c (by decide)]

theorem readClip_word (s : State) (c : Fin 256) : readClip [word c.val] s =
    match s.clips.directory[c] with
    | none => .refuse .notFound s
    | some e => .report s (s.clipWords c e) := by
  simp only [readClip, wordIndex_word c (by decide)] <;> rfl

/-- Word 0 of READ CLIP: a code of 1 to 3 in bits 1 to 0, and three flags above it. -/
theorem clipFlags (code : Nat) (range : code < 4) (honour used waiting : Bool) :
    let w : Word16 := BitVec.ofNat 16
      (code + (if honour then 4 else 0) + (if used then 8 else 0) + (if waiting then 16 else 0))
    w.toNat < 32 ∧ w.toNat % 4 = code ∧ w.getLsbD 2 = honour ∧ w.getLsbD 3 = used ∧ w.getLsbD 4 = waiting := by
  have small : ∀ (code : Fin 4) (honour used waiting : Bool),
      let w : Word16 := BitVec.ofNat 16
        (code.val + (if honour then 4 else 0) + (if used then 8 else 0) + (if waiting then 16 else 0))
      w.toNat < 32 ∧ w.toNat % 4 = code.val ∧ w.getLsbD 2 = honour ∧ w.getLsbD 3 = used ∧
        w.getLsbD 4 = waiting := by
    decide
  exact small ⟨code, range⟩ honour used waiting

theorem ClipState.code_lt (x : ClipState) : x.code < 4 := by
  cases x <;> decide

theorem clipWaiting_iff (s : State) (c : Fin 256) : s.clips.writeBuffer.any (fun b => b.clip == c) = true ↔
    ∃ b, s.clips.writeBuffer = some b ∧ b.clip = c := by
  simp only [Option.any_eq_true, beq_iff_eq]

/-! ### WRITE CLIP -/

/-- The first word of WRITE CLIP reads back its clip and the high byte of the offset. -/
theorem writeWord_fields (c : Fin 256) {high : Nat} (range : high ≤ 63) :
    ((word (c.val * 256 + high)).extractLsb' 8 8).toFin = c ∧ field (word (c.val * 256 + high)) 0 8 = high := by
  have value : (word (c.val * 256 + high)).toNat = c.val * 256 + high := word_toNat_of_lt _ (by omega)
  refine ⟨Fin.ext ?_, ?_⟩
  · change ((word (c.val * 256 + high)).extractLsb' 8 8).toNat = c.val
    rw [BitVec.extractLsb'_toNat, value, Nat.shiftRight_eq_div_pow]
    omega
  · rw [field_eq, value]
    omega

theorem writeClip_words (s : State) (c : Fin 256) {high lo : Nat} (data : List ClipWord) (range : high ≤ 63)
    (low : lo < 65536) (nonempty : 1 ≤ data.length) (fits : data.length ≤ 14) :
    writeClip (word (c.val * 256 + high) :: word lo :: data) s =
      match s.clips.directory[c] with
      | none => .refuse .notFound s
      | some e =>
        if e.state = .capturing then .refuse .busy s
        else if s.referenced c then .refuse .inUse s
        else if e.used < high * 65536 + lo ∨ e.region < high * 65536 + lo + data.length then .refuse .outOfRange s
        else if s.clips.writeBuffer.isSome then .refuse .busy s
        else .ok (s.bufferWords c e (high * 65536 + lo) data) := by
  obtain ⟨clip, offset⟩ := writeWord_fields c range
  have length : ¬ (data.length = 0 ∨ 14 < data.length) := by omega
  have inside : ¬ 63 < high := by omega
  simp only [writeClip, if_neg length, clip, offset, if_neg inside, word_toNat_of_lt lo low] <;> rfl

/-! ### Capture -/

theorem captureClip_words (s : State) (c : Fin 256) (slot : Fin 64) (onSound : Bool) :
    captureClip [word c.val, word slot.val, word onSound.toNat] s =
      match s.clips.directory[c] with
      | none => .refuse .notFound s
      | some e =>
        if s.clips.capture.phase ≠ .idle then .refuse .busy s
        else if s.referenced c then .refuse .inUse s
        else { state := s.startCapture c e slot onSound, status := .accepted, reply := [] } := by
  simp only [captureClip, wordIndex_word c (by decide), wordIndex_word slot (by decide), flagWord_word] <;> rfl

/-- An entry is emptied and the capture record returns to idle; nothing else changes. -/
theorem dropCapture_directory (s : State) (d : Fin 256) : s.dropCapture.clips.directory[d] =
    if d = s.clips.capture.clip then (s.clips.directory[d]).map (fun e => { e with used := 0, state := .empty })
    else s.clips.directory[d] := by
  change (put s.clips.directory s.clips.capture.clip _)[d] = _
  rw [put_get]
  split
  · next same => rw [same]
  · rfl

theorem captureStart_eq {s : State} {e : ClipEntry} (h : s.clips.directory[s.clips.capture.clip] = some e) :
    s.captureStart = e.start := by
  rw [State.captureStart, h]
  rfl

theorem captureRegion_eq {s : State} {e : ClipEntry} (h : s.clips.directory[s.clips.capture.clip] = some e) :
    s.captureRegion = e.region := by
  rw [State.captureRegion, h]
  rfl

end Sys2Proof.Machine

open Sys2Proof Sys2Proof.Machine

/-- Settles O32: each check table in order, and the entry it changes. -/
theorem clipDirectoryRequestsFollowTheirTables : Obligations.ClipDirectoryRequestsFollowTheirTables := by
  intro s a low c used capturing without
  have busy : s.clipCapturing c = true ↔ capturing := clipCapturing_iff s c
  have inUse : s.referenced c = true ↔ used := referenced_iff s c
  refine ⟨fun hi lo lenHi lenLo trim honour range asked => ?_, fun asked => ?_⟩
  · intro start len clash one fits
    have overlap : s.regionClash c start len = true ↔ clash := regionClash_iff s c start len
    rw [exec_asked (i := .defineClip a low) (owner := defineClip) rfl rfl asked, defineClip_words s c honour range one fits,
      show wide hi lo = start from rfl, show wide lenHi lenLo = len from rfl]
    refine ⟨fun h => ?_, fun h k => ?_, fun h k l => ?_, fun h k l => ⟨fun e entry sameStart sameLength => ?_, fun new => ?_⟩⟩
    · rw [if_pos (busy.mpr h), consume_refuse]
    · rw [if_neg (mt busy.mp h), if_pos (inUse.mpr k), consume_refuse]
    · rw [if_neg (mt busy.mp h), if_neg (mt inUse.mp k), if_pos (overlap.mpr l), consume_refuse]
    · rw [if_neg (mt busy.mp h), if_neg (mt inUse.mp k), if_neg (mt overlap.mp l), consume_ok]
      rw [← sameStart, ← sameLength, define_same entry]
      rfl
    · rw [if_neg (mt busy.mp h), if_neg (mt inUse.mp k), if_neg (mt overlap.mp l), consume_ok, define_new new]
      rfl
  · rw [exec_asked (i := .deleteClip a low) (owner := deleteClip) rfl rfl asked,
      exec_asked (i := .readClip a low) (owner := readClip) rfl rfl asked, deleteClip_word, readClip_word]
    refine ⟨fun none => ⟨?_, ?_⟩, fun h => ?_, fun some h k => ?_, fun some h k => ?_, fun e entry => ?_⟩
    · rw [if_pos (Option.isNone_iff_eq_none.mpr none), consume_refuse]
    · rw [none, consume_refuse]
    · have some : ¬ (s.clips.directory[c]).isNone = true := by
        obtain ⟨e, entry, -⟩ := h
        rw [entry]
        exact Bool.false_ne_true
      rw [if_neg some, if_pos (busy.mpr h), consume_refuse]
    · rw [if_neg (mt Option.isNone_iff_eq_none.mp some), if_neg (mt busy.mp h), if_pos (inUse.mpr k), consume_refuse]
    · rw [if_neg (mt Option.isNone_iff_eq_none.mp some), if_neg (mt busy.mp h), if_neg (mt inUse.mp k), consume_ok]
      rfl
    · obtain ⟨small, code, honour, used', waiting⟩ := clipFlags e.state.code e.state.code_lt e.honour (s.referenced c)
        (s.clips.writeBuffer.any (fun b => b.clip == c))
      refine ⟨_, ?_, small, code.trans (by cases e.state <;> rfl), ?_, ?_, ?_⟩
      · rw [entry, consume_report, State.clipWords]
        rfl
      · rw [honour]
      · rw [used', inUse]
      · rw [waiting, clipWaiting_iff]

/-- Settles O33: the rows of its table in order. -/
theorem writeClipFillsTheWriteBuffer : Obligations.WriteClipFillsTheWriteBuffer := by
  intro s a low c high lo data range small nonempty fits asked used offset
  have inUse : s.referenced c = true ↔ used := referenced_iff s c
  rw [exec_asked (i := .writeClip a low) (owner := writeClip) rfl rfl asked,
    writeClip_words s c data range small nonempty fits]
  refine ⟨fun none => ?_, fun e entry => ?_⟩
  · rw [none, consume_refuse]
  · rw [entry]
    refine ⟨fun h => ?_, fun h k => ?_, fun h k l => ?_, fun h k l m => ⟨fun full => ?_, fun free => ?_⟩⟩
    · simp only [if_pos h, consume_refuse]
    · simp only [if_neg h, if_pos (inUse.mpr k), consume_refuse]
    · simp only [if_neg h, if_neg (mt inUse.mp k)]
      rw [if_pos l, consume_refuse]
    · have inside : ¬ (e.used < high * 65536 + lo ∨ e.region < high * 65536 + lo + data.length) := not_or.mpr
        ⟨not_lt.mpr l, not_lt.mpr m⟩
      simp only [if_neg h, if_neg (mt inUse.mp k), if_neg inside,
        if_pos (Option.isSome_iff_ne_none.mpr full), consume_refuse]
    · have inside : ¬ (e.used < high * 65536 + lo ∨ e.region < high * 65536 + lo + data.length) := not_or.mpr
        ⟨not_lt.mpr l, not_lt.mpr m⟩
      simp only [if_neg h, if_neg (mt inUse.mp k), if_neg inside, free]
      rfl

/-- Settles O34: each check table in order, and the record it leaves. -/
theorem captureRequestsFollowTheirTables : Obligations.CaptureRequestsFollowTheirTables := by
  intro s a low c slot onSound used
  have inUse : s.referenced c = true ↔ used := referenced_iff s c
  refine ⟨fun asked => ?_, fun asked => ?_⟩
  · rw [exec_asked (i := .captureClip a low) (owner := captureClip) rfl rfl asked, captureClip_words]
    refine ⟨fun none => ?_, fun e entry => ?_⟩
    · rw [none, consume_refuse]
    · rw [entry]
      refine ⟨fun h => ?_, fun h k => ?_, fun h k => ?_⟩
      · simp only [if_pos h, consume_refuse]
      · simp only [if_neg (not_not.mpr h), if_pos (inUse.mpr k), consume_refuse]
      · simp only [if_neg (not_not.mpr h), if_neg (mt inUse.mp k)]
        rfl
  · rw [exec_asked (i := .cancelCapture a low) (owner := cancelCapture) rfl rfl asked]
    refine ⟨fun h => ?_, fun h => ⟨s.dropCapture, ?_, rfl, rfl, rfl, rfl, rfl, rfl, rfl, dropCapture_directory s⟩⟩
    · rw [cancelCapture, if_pos h, consume_refuse]
    · have posted : s.dropCapture.post .captureFailed (BitVec.ofNat 16 s.clips.capture.clip.val) 1 =
          s.dropCapture.withEvent .captureFailed s.clips.capture.clip.val 1 := post_eq _ _ _ 1
      rw [cancelCapture, if_neg h, consume_ok, posted]

/-- Settles O35: the three closing steps of a recording. -/
theorem captureEventsCloseARecording : Obligations.CaptureEventsCloseARecording := by
  intro s e entry c
  refine ⟨fun phase full => ?_, fun phase short run long => ?_, fun phase empty idle => ?_⟩
  · change Host.Outcome.next (captureFull s) = _
    rw [captureFull, if_pos ⟨phase, full.trans (captureRegion_eq entry).symm⟩]
    rfl
  · intro address
    change Host.Outcome.next (captureEnd s) = _
    have ended : s.clips.capture.phase = .recording ∧ s.clips.capture.stored ≠ s.captureRegion ∧
        480 ≤ s.clips.capture.emptyRun := ⟨phase, (captureRegion_eq entry).symm ▸ short, ge_of_eq run⟩
    rw [captureEnd, if_pos ended, captureStart_eq entry]
    rfl
  · change Host.Outcome.next (captureDone s) = _
    have done : s.clips.capture.phase = .closing ∧ s.clips.capture.buffer = [] ∧ s.clips.captureBurst = false :=
      ⟨phase, empty, by rw [Clips.captureBurst, idle]⟩
    have posted (t : State) (full : Bool) :
        t.post .captureDone (BitVec.ofNat 16 s.clips.capture.clip.val) (if full then 1 else 2) =
          t.withEvent .captureDone s.clips.capture.clip.val (if full then 1 else 2) := by
      cases full with
      | true => exact post_eq t _ _ 1
      | false => exact post_eq t _ _ 2
    simp only [captureDone, if_pos done, posted, entry]
    rfl

end

section
/-! The requests on the page queue, the timers of its records, and the boundaries that its players report. -/

namespace Sys2Proof.Machine

/-! ### QUEUE PAGE -/

theorem chimeWord_elim (chime : Option (Fin 256)) :
    chimeWord (chime.elim 0xFFFF (fun c => word c.val)) = some chime := by
  cases chime with
  | none => rfl
  | some c =>
    have value : (word c.val).toNat = c.val := word_toNat_fin c (by decide)
    have present : ¬ (word c.val).toNat = 65535 := by omega
    simp only [chimeWord, optionalIndex, Option.elim_some, if_neg present, wordIndex_word c (by decide), Option.map_some]

theorem clipList_eq (n : Nat) (ws : List Word16) : clipList n ws =
    (ws.flatMap (fun x => [Fin.ofNat 256 (x.toNat / 256), Fin.ofNat 256 (x.toNat % 256)])).take n := by
  have bytes (x : Word16) : [(x.extractLsb' 8 8).toFin, (x.extractLsb' 0 8).toFin] =
      [Fin.ofNat 256 (x.toNat / 256), Fin.ofNat 256 (x.toNat % 256)] := by
    have high : (x.extractLsb' 8 8).toFin = Fin.ofNat 256 (x.toNat / 256) := Fin.ext (by
      change (x.extractLsb' 8 8).toNat = x.toNat / 256 % 256
      rw [BitVec.extractLsb'_toNat, Nat.shiftRight_eq_div_pow])
    have low : (x.extractLsb' 0 8).toFin = Fin.ofNat 256 (x.toNat % 256) := Fin.ext (by
      change (x.extractLsb' 0 8).toNat = x.toNat % 256 % 256
      rw [BitVec.extractLsb'_toNat, Nat.shiftRight_zero]
      omega)
    rw [high, low]
  simp only [clipList, bytes]

theorem pageSource_words {source : PageSource} {w l0 l1 l2 l3 : Word16} (h : sourceWords source w l0 l1 l2 l3) :
    pageSource w [l0, l1, l2, l3] = some source := by
  cases source with
  | liveSlot t =>
    have src : w = word t.val := h
    rw [src, pageSource, wordIndex_word t (by decide)]
  | liveInput i =>
    have src : w = word (256 + i.val) := h
    have value : (word (256 + i.val)).toNat = 256 + i.val := word_toNat_of_lt _ (by omega)
    rw [src, pageSource, wordIndex_none (by omega), codedIndex_word i (by decide)]
  | clips l =>
    obtain ⟨nonempty, short, src, list⟩ := h
    have value : (word (512 + l.length)).toNat = 512 + l.length := word_toNat_of_lt _ (by omega)
    have count : codedIndex 513 8 (word (512 + l.length)) = some ⟨l.length - 1, by omega⟩ := by
      have at513 : 512 + l.length = 513 + (⟨l.length - 1, by omega⟩ : Fin 8).val := by
        change 512 + l.length = 513 + (l.length - 1)
        omega
      rw [at513, codedIndex_word _ (by decide)]
    rw [src, pageSource, wordIndex_none (by omega), codedIndex_above (by omega), count]
    change some (PageSource.clips (clipList (l.length - 1 + 1) [l0, l1, l2, l3])) = _
    rw [clipList_eq, Nat.sub_add_cancel nonempty, ← list]

theorem queuePage_inRange {id w1 src chime l0 l1 l2 l3 zlo zhi gap wait limit gain : Word16}
    (fine : outOfRange 0x38 [id, w1, src, chime, l0, l1, l2, l3, zlo, zhi, gap, wait, limit, gain] = false) :
    requestPageId id = true ∧ w1.toNat % 16 ≠ 0 ∧ ¬ (zlo.toNat = 0 ∧ zhi.toNat = 0) := by
  have fine : (id.toNat == 0 || !outside 65280 65311 id || w1.toNat % 16 == 0
      || (outside 0 63 src && outside 256 287 src && outside 513 520 src)
      || (outside 0 255 chime && outside 65535 65535 chime) || outside 0 255 zhi
      || (zlo.toNat == 0 && zhi.toNat == 0)) = false := fine
  rw [← Bool.not_eq_true] at fine
  simp only [Bool.or_eq_true, Bool.and_eq_true, Bool.not_eq_true', ← Bool.not_eq_true, beq_iff_eq, outside_iff] at fine
  rw [← Bool.not_eq_false, requestPageId_eq_false_iff]
  omega

theorem zoneWords_zero {low high : Word16} (h : zoneWords 0 low high) : low.toNat = 0 ∧ high.toNat = 0 := by
  obtain ⟨range, bits⟩ := h
  have low_zero : low = 0 := BitVec.eq_of_getLsbD_eq fun i hi => by
    have bit := bits ⟨i, by omega⟩
    rw [if_pos hi] at bit
    exact bit.symm.trans (by simp)
  have high_zero : high = 0 := BitVec.eq_of_getLsbD_eq fun i hi => by
    by_cases inside : i < 8
    · have bit := bits ⟨16 + i, by omega⟩
      rw [if_neg (by simp), Nat.add_sub_cancel_left] at bit
      exact bit.symm.trans (by simp)
    · rw [BitVec.getLsbD_eq_getElem hi, BitVec.getElem_eq_testBit_toNat,
        Nat.testBit_lt_two_pow (lt_of_le_of_lt range (lt_of_lt_of_le (by decide) (Nat.pow_le_pow_right two_pos (by omega : 8 ≤ i))))]
      simp
  rw [low_zero, high_zero]
  exact ⟨rfl, rfl⟩

theorem page_isSome_iff (s : State) (id : PageId) : (s.page id).isSome = true ↔ ∃ p ∈ s.pages.queue, p.id = id := by
  rw [State.page, List.find?_isSome]
  simp only [beq_iff_eq]

theorem clipReady_iff (s : State) (c : Fin 256) :
    s.clipReady c = true ↔ ∃ e, s.clips.directory[c] = some e ∧ e.state = .ready := by
  simp only [State.clipReady, Option.any_eq_true, beq_iff_eq]

theorem clipsReady_iff (s : State) (chime : Option (Fin 256)) (source : PageSource) :
    s.clipsReady chime source = true ↔
      ∀ c, (chime = some c ∨ ∃ l, source = .clips l ∧ c ∈ l) → s.clipReady c = true := by
  have chimeReady : chime.all s.clipReady = true ↔ ∀ c, chime = some c → s.clipReady c = true := by
    cases chime <;> simp
  cases source with
  | clips l =>
    simp only [State.clipsReady, Bool.and_eq_true, chimeReady, List.all_eq_true, PageSource.clips.injEq]
    exact ⟨fun ⟨first, rest⟩ c named => named.elim (first c) fun ⟨_, eq, mem⟩ => rest c (eq ▸ mem),
      fun ready => ⟨fun c named => ready c (.inl named), fun c mem => ready c (.inr ⟨l, rfl, mem⟩)⟩⟩
  | liveSlot t => simp [State.clipsReady, chimeReady]
  | liveInput i => simp [State.clipsReady, chimeReady]

/-! ### The end of one record -/

/-- The first record of an id ends, also where the id is not its own alone. -/
theorem endPage_first {s : State} {p : Page} (first : s.page p.id = some p) (cause : Nat) :
    s.endPage p.id (BitVec.ofNat 4 cause) = s.pageOver p cause := by
  have freed (x : Pages) : (s.freePage p.id).setPages x = (s.playerFreed p.player).setPages x := by
    have released (y : Fin 4) : (s.releasePlayer y).setPages x = (s.playerFreed (some y)).setPages x :=
      congrArg (State.setPages · x) (releasePlayer_eq s y)
    simp only [State.freePage, first]
    cases player : p.player with
    | none => rfl
    | some y => exact released y
  have pages (queue : List Page) : { (s.freePage p.id).pages with queue := queue } = { s.pages with queue := queue } := by
    simp only [State.freePage, first]
    cases player : p.player with
    | none => rfl
    | some y => rfl
  have queue : (s.freePage p.id).pages.queue.filter (fun q => q.id != p.id) =
      s.pages.queue.filter (fun q => q.id != p.id) := by
    simp only [State.freePage, first]
    cases player : p.player with
    | none => rfl
    | some x => exact filter_withPage s.pages.queue p.id (fun q => { q with player := none }) fun _ => rfl
  have freedPages : (s.playerFreed p.player).pages = s.pages := by
    cases p.player <;> rfl
  rw [State.endPage, State.removePage]
  simp only [queue, post_page, freed, pages]
  rw [State.pageOver]
  simp only [freedPages]
  rfl

theorem page_first {s : State} {before after : List Page} {p : Page} (queue : s.pages.queue = before ++ p :: after)
    (first : ∀ q ∈ before, q.id ≠ p.id) :
    s.page p.id = some p ∧ s.pages.queue.findIdx (fun q => q.id == p.id) = before.length := by
  have none : ∀ q ∈ before, ¬ (q.id == p.id) = true := fun q mem => by
    rw [beq_iff_eq]
    exact first q mem
  have here : (p.id == p.id) = true := beq_self_eq_true _
  rw [State.page, queue]
  refine ⟨?_, ?_⟩
  · rw [List.find?_append, List.find?_eq_none.mpr none, Option.none_or]
    exact List.find?_cons_of_pos here
  · rw [List.findIdx_append, List.findIdx_eq_length_of_false fun q mem => Bool.not_eq_true _ ▸ none q mem, if_neg (lt_irrefl _), List.findIdx_cons]
    simp

/-! ### The end of a gap -/

theorem grantable_eq (s : State) (p : Page) (z : Fin 24) : s.grantable p z =
    (!s.covered z && !s.lockedAgainst z p.priority &&
      ((s.holder z).map (·.priority)).all (fun n => decide (n < p.priority))) := by
  unfold State.grantable
  cases s.holder z <;> rfl

/-- What a page may be granted depends on the queue by the records' zones and priorities alone. -/
theorem grantableZones_congr {s t : State} (frame : PagesFrame s t) (p : Page)
    (holders : ∀ z, (t.holder z).map (·.priority) = (s.holder z).map (·.priority)) :
    t.grantableZones p = s.grantableZones p := by
  have covered (z : Fin 24) : t.covered z = s.covered z := by
    simp only [State.covered, frame.alarm]
  have locked (z : Fin 24) : t.lockedAgainst z p.priority = s.lockedAgainst z p.priority := by
    simp only [State.lockedAgainst, State.zoneFields, State.activeBank, frame.mix, frame.scene]
  have grantable (z : Fin 24) : t.grantable p z = s.grantable p z := by
    rw [grantable_eq, grantable_eq, covered, locked, holders]
  simp only [State.grantableZones, grantable]

/-- A change of records in place that keeps what they hold and their priorities keeps the holders' priorities. -/
theorem holder_map {s t : State} (g : Page → Page) (queue : t.pages.queue = s.pages.queue.map g)
    (granted : ∀ q, (g q).granted = q.granted) (z : Fin 24) : t.holder z = (s.holder z).map g := by
  rw [State.holder, queue, List.find?_map]
  have test : (fun p : Page => hasZone p.granted z) ∘ g = fun p : Page => hasZone p.granted z := by
    funext q
    simp only [Function.comp_apply, granted]
  rw [test]
  rfl

/-- A record whose next repeat starts at the end of its gap. -/
theorem restarted_clips {p : Page} {list : List (Fin 256)} (source : p.source = .clips list) :
    let chimes := p.chime.isSome && p.current == 1
    p.sequence = (if p.current = 1 then p.chime.toList ++ list else list, chimes) ∧
      p.restarted = { p with restartIn := none, phase := if chimes then .chime else .audio } := by
  have sequence : p.sequence =
      (if p.current = 1 then p.chime.toList ++ list else list, p.chime.isSome && p.current == 1) := by
    rw [Page.sequence, source]
    cases p.chime with
    | none => by_cases first : p.current = 1 <;> simp [first]
    | some c => by_cases first : p.current = 1 <;> simp [first]
  refine ⟨sequence, ?_⟩
  have clip : p.clip = true := by rw [Page.clip, source]
  rw [Page.restarted, sequence, clip]
  rfl

theorem suspensions_map {s t : State} (g : Page → Page) (queue : t.pages.queue = s.pages.queue.map g)
    (lost : Page → ZoneSet) (same : ∀ q ∈ s.pages.queue, (g q).suspendedBy (lost (g q)) = q.suspendedBy (lost q)) :
    t.suspensions lost = s.suspendedCount lost := by
  rw [State.suspensions, State.suspendedCount, queue, List.countP_map, ← List.countP_eq_length_filter]
  exact List.countP_congr fun q mem => by
    rw [Function.comp_apply, ← same q mem]
    rfl

/-! ### Boundaries of a player's sequence -/

theorem outstanding_iff (c : Clips) (p : Fin 4) : c.outstanding p = true ↔
    ∃ pos off len n, c.burst = some { kind := .playerRead p pos off len false, elapsed := n } := by
  unfold Clips.outstanding
  split
  · next q pos off len stale n burst =>
    rw [burst, Bool.and_eq_true, beq_iff_eq, Bool.not_eq_true']
    exact ⟨fun ⟨own, fresh⟩ => ⟨pos, off, len, n, by rw [own, fresh]⟩, fun ⟨_, _, _, _, eq⟩ => by
      injection eq with eq
      injection eq with kind
      injection kind with own _ _ _ fresh
      exact ⟨own, fresh⟩⟩
  · next other =>
    refine ⟨fun no => absurd no Bool.false_ne_true, fun ⟨pos, off, len, n, eq⟩ => absurd eq (other p pos off len false n)⟩

theorem playerPage_some {s : State} {x : Fin 4} {q : Page} (h : s.playerPage x = some q) :
    q ∈ s.pages.queue ∧ q.player = some x :=
  ⟨List.mem_of_find?_eq_some h, by simpa using List.find?_some h⟩

theorem endLiveChime_eq {s : State} (h : s.pageIdsApart) {q : Page} (mem : q ∈ s.pages.queue) :
    s.endLiveChime q = ((s.playerFreed q.player).withPage q.id
      (fun r => { r with player := none, phase := .audio, sourceLoss := 0 })).passDue := by
  rw [State.endLiveChime, freePage_eq h mem, updatePage_eq, withPage_withPage]
  · rfl
  · exact fun _ => rfl

end Sys2Proof.Machine

open Sys2Proof Sys2Proof.Machine

/-- Settles O39. -/
theorem queuePageQueuesOneRecord : Obligations.QueuePageQueuesOneRecord := by
  intro s a low id w1 src chimeW l0 l1 l2 l3 zlo zhi gap wait limit gain source chime zones sourced chimed zoned asked
    inRange present named ready page
  obtain ⟨ownId, somePriority, someZone⟩ := queuePage_inRange inRange
  have someZones : zones ≠ 0 := fun zero => someZone (zoneWords_zero (zero ▸ zoned))
  have priority : field w1 0 4 = w1.toNat % 16 := by
    rw [field_eq]
    omega
  have repeats : field w1 8 4 = w1.toNat / 256 % 16 := field_eq w1 8 4
  have held : (s.page id).isSome = true ↔ present := page_isSome_iff s id
  have allReady : s.clipsReady chime source = true ↔ ∀ c, named c → ready c :=
    (clipsReady_iff s chime source).trans (forall_congr' fun c => imp_congr_right fun _ => clipReady_iff s c)
  have record : { newPage id (w1.toNat % 16) .request source chime zones (w1.getLsbD 4 = false)
      (clampTo 1 8 (w1.toNat / 256 % 16)) (min 600 gap.toNat) (min 600 wait.toNat)
      (clampedPlayLimit source limit.toNat) gain.toNat 0 with arrival := s.pages.nextArrival } = page := by
    have whole : decide (w1.getLsbD 4 = false) = !w1.getLsbD 4 := by cases w1.getLsbD 4 <;> rfl
    simp only [newPage, whole, page]
    cases source <;> rfl
  have fine : ¬ (requestPageId id = false ∨ w1.toNat % 16 = 0 ∨ zones = 0) :=
    not_or.mpr ⟨Bool.eq_false_iff.not_left.mpr ownId, not_or.mpr ⟨somePriority, someZones⟩⟩
  rw [exec_asked (i := .queuePage a low) (owner := queuePage) rfl rfl asked, chimed]
  simp only [queuePage, pageSource_words sourced, chimeWord_elim, zoneSetOf_words _ _ _ zoned, priority, repeats, if_neg fine]
  refine ⟨fun h => ?_, fun h k => ?_, fun h k l => ?_, fun h k l => ?_⟩
  · rw [if_pos (held.mpr h), consume_refuse]
  · rw [if_neg (mt held.mp h), if_pos k, consume_refuse]
  · have missing : s.clipsReady chime source = false := by
      obtain ⟨c, hc, not⟩ := l
      exact Bool.eq_false_iff.mpr fun all => not (allReady.mp all c hc)
    rw [if_neg (mt held.mp h), if_neg (not_le.mpr k), if_pos missing, consume_refuse]
  · obtain ⟨before, after, split, joined, below, above⟩ := insertPage_split page s.pages.queue
    refine ⟨before, after, split, below, above, ?_⟩
    have found : ¬ s.clipsReady chime source = false := by
      rw [allReady.mpr l]
      decide
    rw [if_neg (mt held.mp h), if_neg (not_le.mpr k), if_neg found, consume_ok, State.enqueue, record, joined]
    rfl

/-- Settles O40. -/
theorem cancelAndReadPageActOnOneRecord : Obligations.CancelAndReadPageActOnOneRecord := by
  intro s a low id asked
  rw [exec_asked (i := .cancelPage a low) (owner := cancelPage) rfl rfl asked,
      exec_asked (i := .readPage a low) (owner := readPage) rfl rfl asked]
  refine ⟨fun zero => ⟨?_, ?_⟩, fun nonzero absent => ⟨?_, ?_⟩, fun before after p nonzero queue own first => ?_⟩
  · rw [cancelPage, if_pos zero, consume_refuse]
  · rw [readPage, if_pos zero, consume_refuse]
  · rw [cancelPage, if_neg nonzero, page_none_iff.mpr absent, if_pos Option.isNone_none, consume_refuse]
  · rw [readPage, if_neg nonzero, page_none_iff.mpr absent, consume_refuse]
  · subst own
    obtain ⟨found, position⟩ := page_first queue first
    refine ⟨?_, ?_⟩
    · rw [cancelPage, if_neg nonzero, found, Option.isNone_some, if_neg Bool.false_ne_true, consume_ok]
      exact congrArg (fun t : State => Host.Outcome.next (t.answered 0x39 .ok [])) (endPage_first found 2)
    · rw [readPage, if_neg nonzero, found, consume_report, position, Page.words]
      cases p.state <;> cases p.phase <;> rfl

/-- Settles O41: the ends by `endPage_eq`, the end of a gap by the start of a repeat and the taking of zones. -/
theorem pageTimersEndPagesAndGaps : Obligations.PageTimersEndPagesAndGaps := by
  intro s p ok mem
  have found : s.page p.id = some p := page_of_mem ok.idsApart mem
  refine ⟨fun idle life timer => ?_, fun idle timer => ?_, fun playing live timer => ?_, fun playing run => ?_,
    fun list x playing due source player => ?_⟩
  · change Host.Outcome.next (pageExpired p.id s) = _
    have due : p.state ≠ .playing ∧ 0 < p.waitLife ∧ p.waitLife * Config.second ≤ p.waitTimer :=
      ⟨idle, life, ge_of_eq timer⟩
    simp only [pageExpired, found]
    rw [if_pos due]
    exact congrArg _ (endPage_eq ok.idsApart mem 3)
  · change Host.Outcome.next (pageExpired p.id s) = _
    have early : ¬ (p.state ≠ .playing ∧ 0 < p.waitLife ∧ p.waitLife * Config.second ≤ p.waitTimer) :=
      fun ⟨_, life, due⟩ => timer.elim (fun none => absurd life (by omega)) fun less => absurd due (not_le.mpr less)
    simp only [pageExpired, found]
    rw [if_neg early]
  · change Host.Outcome.next (pageTimedOut p.id s) = _
    have due : p.state = .playing ∧ p.clip = false ∧ p.playLimit * Config.second ≤ p.playTimer :=
      ⟨playing, live, ge_of_eq timer⟩
    simp only [pageTimedOut, found]
    rw [if_pos due]
    exact congrArg _ (endPage_eq ok.idsApart mem 4)
  · change Host.Outcome.next (pageSourceLost p.id s) = _
    simp only [pageSourceLost, found]
    rw [if_pos ⟨playing, ge_of_eq run⟩]
    exact congrArg _ (endPage_eq ok.idsApart mem 5)
  · intro chimes zs restarted t
    let change (q : Page) : Page := { q with restartIn := none, phase := if chimes then .chime else .audio }
    obtain ⟨sequence, record⟩ := restarted_clips source
    have clip : p.needsPlayer = true := by rw [Page.needsPlayer, Page.clip, source]; rfl
    have start : s.startRepeat p.id = restarted := by
      rw [startRepeat_eq ok.idsApart mem, withPage_congr ok.idsApart mem Page.restarted change record]
      unfold State.sequenceHanded
      simp only [player, clip, if_true, sequence]
      rfl
    let g (q : Page) : Page := if q.id = p.id then change q else q
    have queue : restarted.pages.queue = s.pages.queue.map g := rfl
    have same (q : Page) : (g q).granted = q.granted ∧ (g q).priority = q.priority ∧ (g q).id = q.id ∧
        (g q).whole = q.whole := by
      by_cases own : q.id = p.id
      · have changed : g q = change q := if_pos own
        rw [changed]
        exact ⟨rfl, rfl, rfl, rfl⟩
      · have kept : g q = q := if_neg own
        rw [kept]
        exact ⟨rfl, rfl, rfl, rfl⟩
    have frame : PagesFrame s restarted := start ▸ (startRepeat_pagesOnly s p.id).toPagesFrame
    have zones : p.joining &&& restarted.grantableZones p = zs := by
      refine congrArg (p.joining &&& ·) (grantableZones_congr frame p fun z => ?_)
      rw [holder_map g queue (fun q => (same q).1), Option.map_map]
      exact congrArg (Option.map · (s.holder z)) (funext fun q => (same q).2.1)
    have apart : restarted.pageIdsApart := withPage_idsApart ok.idsApart p.id change fun _ => rfl
    have taken : (restarted.takeZones p.id zs).1 = restarted.afterTaking p zs :=
      congrArg Prod.fst (takeZones_eq apart (p := change p) zs)
    have count : restarted.suspensions (fun q => if q.id = p.id then 0 else zs) =
        s.suspendedCount (fun q => if q.id = p.id then 0 else zs) :=
      suspensions_map g queue _ fun q _ => by
        obtain ⟨granted, -, id, whole⟩ := same q
        simp only [Page.suspendedBy, granted, id, whole]
    change Host.Outcome.next (gapEnd p.id s) = _
    simp only [gapEnd, found]
    rw [if_pos ⟨playing, due⟩]
    simp only [start, zones, taken, count]
    rfl

/-- Settles O37: the page of a player is the one record of the queue that has it. -/
theorem playerEventsAdvanceTheirPage : Obligations.PlayerEventsAdvanceTheirPage := by
  intro s p ok x taken
  refine ⟨fun priming held full => ?_, fun q page => ?_⟩
  · have primed : s.clips.primed p = true := by
      have whole : (decide (256 ≤ x.fifo.length) || (x.fetch.isNone && !s.clips.outstanding p)) = true := by
        rw [Bool.or_eq_true, decide_eq_true_iff, Bool.and_eq_true, Option.isNone_iff_eq_none, Bool.not_eq_true',
          ← Bool.not_eq_true, outstanding_iff]
        exact full.imp_right fun ⟨fetched, quiet⟩ =>
          ⟨fetched, fun ⟨pos, off, len, n, burst⟩ => quiet pos off len n burst⟩
      rw [Clips.primed, Bool.and_eq_true, Bool.and_eq_true, beq_iff_eq]
      exact ⟨⟨priming, by rw [held]; rfl⟩, whole⟩
    change Host.Outcome.next (playerPrimed p s) = _
    rw [playerPrimed, if_pos primed]
    rfl
  · obtain ⟨mem, player⟩ := playerPage_some page
    refine ⟨fun due clip phase => ?_, fun due clip more => ?_, fun due clip last => ?_, fun due live => ?_⟩
    · change Host.Outcome.next (chimeEnd p s) = _
      rw [chimeEnd, if_pos due, page]
      exact congrArg _ (if_pos ⟨clip, phase⟩)
    all_goals
      change Host.Outcome.next (sequenceEnd p s) = _
      rw [sequenceEnd, if_pos due, page]
    · change Host.Outcome.next (if q.clip then (taken { x with seqEnd := .taken }).endRepeat q else _) = _
      rw [if_pos clip, State.endRepeat, if_neg (not_le.mpr more)]
      rfl
    · change Host.Outcome.next (if q.clip then (taken { x with seqEnd := .taken }).endRepeat q else _) = _
      rw [if_pos clip, State.endRepeat, if_pos last]
      exact congrArg _ (endPage_eq (s := taken { x with seqEnd := .taken }) ok.idsApart mem 1)
    · change Host.Outcome.next (if q.clip then _ else (taken { x with seqEnd := .taken }).endLiveChime q) = _
      rw [if_neg (by rw [live]; decide), endLiveChime_eq (s := taken { x with seqEnd := .taken }) ok.idsApart mem, player]

end

section
/-! The requests of the intercom switch, and the ends of calls that ring or are held too long. -/

namespace Sys2Proof.Machine

/-! ### SET STATION -/

theorem stationPageId_eq_iff (id : PageId) (p : Fin 32) : id = stationPageId p ↔ id.toNat = 65280 + p.val := by
  have value : (stationPageId p).toNat = 65280 + p.val := word_toNat_of_lt _ (by omega)
  rw [← value]
  exact BitVec.toNat_inj.symm

theorem stationInUse_iff (s : State) (p : Fin 32) : s.stationInUse p = true ↔
    (∃ c ∈ s.icom.calls, p ∈ c.stations) ∨ ∃ q ∈ s.pages.queue, q.id.toNat = 65280 + p.val := by
  rw [State.stationInUse, Bool.or_eq_true, page_isSome_iff]
  simp only [State.callOf, List.find?_isSome, List.contains_iff_mem, stationPageId_eq_iff]

theorem dirNumber_of_range {w : Word16} (low : 1 ≤ w.toNat) (high : w.toNat ≤ 9999) :
    dirNumber w = some (BitVec.ofNat 14 w.toNat) := by
  rw [dirNumber, if_pos ⟨low, high⟩]
  rfl

/-- The first port, in ascending order, whose entry has a number. -/
theorem find_indices_iff {n : Nat} (f : Fin n → Bool) (q : Fin n) :
    (indices n).find? f = some q ↔ f q = true ∧ ∀ r : Fin n, r < q → f r = false := by
  rw [List.find?_eq_some_iff_getElem]
  refine and_congr_right fun _ => ⟨fun ⟨i, bound, here, before⟩ r less => ?_, fun before => ?_⟩
  · have at_i : q.val = i := by
      rw [← here]
      simp [indices]
    have earlier := before r.val (by omega)
    simpa [indices] using earlier
  · exact ⟨q.val, by simp [indices], by simp [indices], fun j less => by simpa [indices] using before ⟨j, by omega⟩ less⟩

theorem stationWith_some_iff (s : State) (n : DirNumber) (q : Fin 32) : s.stationWith n = some q ↔
    s.numberAt n q ∧ ∀ r : Fin 32, r < q → ¬ s.numberAt n r := by
  have number (q : Fin 32) : (s.icom.table[q]).any (fun e => e.number == n) = true ↔ s.numberAt n q := by
    simp only [Option.any_eq_true, beq_iff_eq, State.numberAt]
  rw [State.stationWith, find_indices_iff]
  simp only [number, ← Bool.not_eq_true]

theorem optionalIndex_absent (t : Option (Fin 24)) : optionalIndex 24 255 (optionWord t) = some t :=
  optionalIndex_word t (by decide)

theorem setStation_remove (s : State) (p : Fin 32) (w2 w3 w4 breakIn w6 w7 prio limit w10 : Word16) :
    setStation [word p.val, 0, w2, w3, w4, breakIn, w6, w7, prio, limit, w10] s =
      if (s.icom.table[p]).isNone then .refuse .notFound s
      else if s.stationInUse p then .refuse .inUse s
      else .ok (s.setStationEntry p none) := by
  simp only [setStation, wordIndex_word p (by decide)]
  rfl

/-- The entry that SET STATION writes at a port. -/
def State.writtenStation (s : State) (p : Fin 32) (n breakIn prio limit : Word16) (mic speaker : Fin 32)
    (listen volume : Option (Fin 24)) (group : ZoneSet) : Station :=
  { number := BitVec.ofNat 14 n.toNat, mic := mic, speaker := speaker, listen := listen
    breakIn := min 16 (max 1 breakIn.toNat), pageGroup := group, pagePrio := min 15 (max 1 prio.toNat)
    pageLimit := min 600 (max 1 limit.toNat), volumeZone := volume
    cueTimer := ((s.icom.table[p]).map (·.cueTimer)).getD 0
    cueDue := ((s.icom.table[p]).map (·.cueDue)).getD false }

theorem setStation_write (s : State) (p mic speaker : Fin 32) (listen volume : Option (Fin 24)) {group : ZoneSet}
    {n breakIn w6 w7 prio limit : Word16} (low : 1 ≤ n.toNat) (high : n.toNat ≤ 9999) (zones : zoneWords group w6 w7) :
    setStation [word p.val, n, word mic.val, word speaker.val, optionWord listen, breakIn, w6, w7, prio, limit,
        optionWord volume] s =
      if s.stationInUse p then .refuse .inUse s
      else if (s.stationWith (BitVec.ofNat 14 n.toNat)).any (fun q => q != p) then .refuse .duplicate s
      else if s.ports.channels[speaker] ≠ .station p then .refuse .notAllowed s
      else .ok (s.setStationEntry p (some (s.writtenStation p n breakIn prio limit mic speaker listen volume group))) := by
  have some : ¬ n.toNat = 0 := by omega
  have kept (e : Station) (cue : e.cueTimer = 0) (due : e.cueDue = false) : e.keepingCue s.icom.table[p] = { e with
      cueTimer := ((s.icom.table[p]).map (·.cueTimer)).getD 0
      cueDue := ((s.icom.table[p]).map (·.cueDue)).getD false } := by
    unfold Station.keepingCue
    cases s.icom.table[p] with
    | none => rw [Option.map_none, Option.map_none, Option.getD_none, Option.getD_none, ← cue, ← due]
    | some o => rfl
  simp only [setStation, wordIndex_word p (by decide), if_neg some, stationOf, dirNumber_of_range low high,
    wordIndex_word mic (by decide), wordIndex_word speaker (by decide), optionalIndex_absent, zoneSetOf_words _ _ _ zones]
  rw [kept _ rfl rfl]
  rfl

/-! ### Calls -/

theorem callWith_isNone_iff (s : State) (id : CallId) : (s.callWith id).isNone = true ↔ ∀ c ∈ s.icom.calls, c.id ≠ id := by
  rw [Option.isNone_iff_eq_none, callWith_none_iff]

/-- A new call in a table with room for one more id (R135). -/
theorem createCall_created {s : State} (room : s.icom.calls.length < 255) (parties : CallParties) (emergency : Bool)
    (headRef : Word16) :
    s.callCreated (s.createCall parties emergency headRef) (newCall s.nextCallId parties emergency headRef) := by
  obtain ⟨d, small, id, before, fresh⟩ := nextCallId_spec room
  obtain ⟨front, back, split, joined⟩ := insertCall_split (newCall s.nextCallId parties emergency headRef) s.icom.calls
  refine ⟨⟨d, small, id, before⟩, fresh, front, back, split, ?_⟩
  rw [createCall_eq]
  simp only [joined]

theorem newCall_eq (id : CallId) (parties : CallParties) (emergency : Bool) (headRef : Word16) :
    newCall id parties emergency headRef = newRing id parties emergency headRef (match parties with
      | .trunkOut _ _ => .wanted
      | _ => .ringing) := rfl

theorem callOver_length (s : State) (c : Call) (cause : Nat) :
    (s.callOver c cause).icom.calls.length ≤ s.icom.calls.length := List.length_filter_le _ _

theorem stationState_of_callOf {s : State} {p : Fin 32} {c : Call} (call : s.callOf p = some c) : s.stationState p ≠ .idle := fun idle => by
  rw [callOf_of_idle idle] at call
  cases call

/-- What OFFER CALL finds at a station that is in a call. -/
theorem offerRoom_inCall {s : State} {p : Fin 32} {c : Call} (present : s.stationState p ≠ .absent)
    (call : s.callOf p = some c) (emergency : Bool) :
    s.offerRoom p emergency = if emergency && !c.emergency then .preempt c.id else .busy := by
  have busy := stationState_of_callOf call
  unfold State.offerRoom
  rw [call]
  cases state : s.stationState p with
  | absent => exact absurd state present
  | idle => exact absurd state busy
  | _ => rfl

theorem offerCall_words (s : State) (emergency : Bool) {n remote : Nat} (ref : Word16) (low : 1 ≤ n) (high : n ≤ 9999)
    (low' : 1 ≤ remote) (high' : remote ≤ 9999) :
    offerCall [word (n + if emergency then 32768 else 0), word remote, ref] s =
      match s.stationWith (BitVec.ofNat 14 n) with
      | none => .refuse .notFound s
      | some p =>
        match s.offerRoom p emergency with
        | .busy => .refuse .busy s
        | .free => if s.callsFull then .refuse .full s else s.offer p emergency (BitVec.ofNat 14 remote) ref
        | .preempt id => (s.endCall id callPreempted).offer p emergency (BitVec.ofNat 14 remote) ref := by
  have value : (word (n + if emergency then 32768 else 0)).toNat = n + if emergency then 32768 else 0 :=
    word_toNat_of_lt _ (by split <;> omega)
  have value' : (word remote).toNat = remote := word_toNat_of_lt _ (by omega)
  have number : (word (n + if emergency then 32768 else 0) &&& 0x3FFF).toNat = n := by
    rw [BitVec.toNat_and, value]
    change _ &&& (2 ^ 14 - 1) = n
    rw [Nat.and_two_pow_sub_one_eq_mod]
    split <;> omega
  have flag : (word (n + if emergency then 32768 else 0)).getLsbD 15 = emergency := by
    rw [BitVec.getLsbD, value, Nat.testBit_eq_decide_div_mod_eq]
    cases emergency with
    | true => exact decide_eq_true (by simp only [if_true]; omega)
    | false => exact decide_eq_false (by simp only [Bool.false_eq_true, if_false]; omega)
  have plain : (word (n + if emergency then 32768 else 0)).getLsbD 14 = false := by
    rw [BitVec.getLsbD, value, Nat.testBit_eq_decide_div_mod_eq]
    exact decide_eq_false (by split <;> omega)
  simp only [offerCall, flag, plain, dirNumber_of_range (number.symm ▸ low) (number.symm ▸ high), number,
    dirNumber_of_range (value'.symm ▸ low') (value'.symm ▸ high'), value'] <;> rfl

theorem bridgeable_iff (c : Call) : c.bridgeable = true ↔ (∃ x n, c.parties = .trunkOut x n ∧ c.state = .wanted) ∨
    ∃ x n, c.parties = .trunkIn x n ∧ c.state = .ringing ∧ c.answered = true := by
  unfold Call.bridgeable
  cases c.parties <;> simp

theorem slotNamed_iff (s : State) (slot : Fin 64) : s.slotNamed slot = true ↔ ∃ i ∈ s.ring.inserts, i.slot = slot := by
  simp [State.slotNamed]

theorem byteId_of_nonzero {id : CallId} (h : id ≠ 0) : byteId (word id.toNat) = some id := byteId_word id h

theorem bridgeCall_words (s : State) {id : CallId} (nonzero : id ≠ 0) (tx rx : Fin 64) :
    bridgeCall [word id.toNat, word tx.val, word rx.val] s =
      match s.callWith id with
      | none => .refuse .notFound s
      | some c =>
        if c.bridgeable = false then .refuse .notAllowed s
        else if s.slotNamed tx then .refuse .conflict s
        else .ok (s.bridge c tx rx) := by
  simp only [bridgeCall, byteId_of_nonzero nonzero, wordIndex_word tx (by decide), wordIndex_word rx (by decide)] <;> rfl

/-- A call as BRIDGE CALL leaves it: HELD when it is under hold, CONNECTED otherwise (R140, R145). -/
def State.bridged (s : State) (c : Call) (tx rx : Fin 64) : Call :=
  if s.underHold c then { c with tx := some tx, rx := some rx, state := .held, holdTimer := 0 }
  else { c with tx := some tx, rx := some rx, state := .connected }

theorem bridge_eq {s : State} (ids : (s.icom.calls.map (·.id)).Nodup) {c : Call} (mem : c ∈ s.icom.calls)
    (tx rx : Fin 64) : s.bridge c tx rx =
      { s with
        ring := { s.ring with inserts :=
          s.ring.inserts ++ [{ slot := tx, source := .trunkCall c.id, clash := 0, reported := false }] }
        icom := { s.icom with calls := s.icom.calls.map (fun x => if x.id = c.id then s.bridged c tx rx else x) } } := by
  let slots (x : Call) : Call := { x with tx := some tx, rx := some rx }
  let join (x : Call) : Call :=
    if s.underHold c then { x with state := .held, holdTimer := 0 } else { x with state := .connected }
  have calls : (s.icom.calls.map (fun x => if x.id = c.id then slots x else x)).map
        (fun x => if x.id = c.id then join x else x) =
      s.icom.calls.map (fun x => if x.id = c.id then s.bridged c tx rx else x) := by
    rw [List.map_map]
    refine List.map_congr_left fun x hx => ?_
    rw [Function.comp_apply]
    by_cases own : x.id = c.id
    · have same : x = c := List.inj_on_of_nodup_map ids hx mem own
      have kept : (slots x).id = c.id := own
      rw [if_pos own, if_pos own, if_pos kept, same]
      simp only [join, State.bridged]
      rfl
    · rw [if_neg own, if_neg own, if_neg own]
  exact congrArg (fun calls => State.setIcom (s.addInsert tx (.trunkCall c.id)) { s.icom with calls := calls }) calls

end Sys2Proof.Machine

open Sys2Proof Sys2Proof.Machine

/-- Settles O48. -/
theorem setStationWritesOneEntry : Obligations.SetStationWritesOneEntry := by
  intro s a low p n breakIn prio limit w2 w3 w4 w6 w7 w10 mic speaker listen volume group used written asked
  have inUse : s.stationInUse p = true ↔ used := stationInUse_iff s p
  rw [exec_asked (i := .setStation a low) (owner := setStation) rfl rfl asked]
  refine ⟨fun zero => ?_, fun one fits m sp li zones vo => ?_⟩
  · rw [zero, setStation_remove]
    refine ⟨fun none => ?_, fun some h => ?_, fun some h => ?_⟩
    · rw [if_pos (Option.isNone_iff_eq_none.mpr none), consume_refuse]
    · rw [if_neg (mt Option.isNone_iff_eq_none.mp some), if_pos (inUse.mpr h), consume_refuse]
    · rw [if_neg (mt Option.isNone_iff_eq_none.mp some), if_neg (mt inUse.mp h), consume_ok]
      rfl
  · intro other allowed x
    have duplicate : (s.stationWith (BitVec.ofNat 14 n.toNat)).any (fun q => q != p) = true ↔ other := by
      simp only [Option.any_eq_true, stationWith_some_iff, bne_iff_ne]
      exact exists_congr fun q => and_comm
    rw [m, sp, li, vo, setStation_write s p mic speaker listen volume one fits zones]
    refine ⟨fun h => ?_, fun h k => ?_, fun h k l => ?_, fun h k l => ?_⟩
    · rw [if_pos (inUse.mpr h), consume_refuse]
    · rw [if_neg (mt inUse.mp h), if_pos (duplicate.mpr k), consume_refuse]
    · rw [if_neg (mt inUse.mp h), if_neg (mt duplicate.mp k), if_pos l, consume_refuse]
    · rw [if_neg (mt inUse.mp h), if_neg (mt duplicate.mp k), if_neg (not_not.mpr l), consume_ok]
      rfl

/-- Settles O49. -/
theorem trunkRequestsFollowTheirTables : Obligations.TrunkRequestsFollowTheirTables := by
  intro s a low ok
  refine ⟨fun emergency n remote ref one fits one' fits' asked => ?_, fun id tx rx nonzero asked => ?_⟩
  · intro held created
    rw [exec_asked (i := .offerCall a low) (owner := offerCall) rfl rfl asked,
      offerCall_words s emergency ref one fits one' fits']
    have offered (u : State) (p : Fin 32) (room : u.icom.calls.length < 255)
        (answer : exec (.offerCall a low) s =
          .next (State.consume 0x41 (u.offer p emergency (BitVec.ofNat 14 remote) ref))) :
        created u p := by
      refine ⟨_, u.nextCallId, createCall_created room (.trunkIn p (BitVec.ofNat 14 remote)) emergency ref, ?_⟩
      have id : u.nextCallId.setWidth 16 = word u.nextCallId.toNat := by
        rw [word, ← BitVec.toNat_inj, BitVec.toNat_setWidth, BitVec.toNat_ofNat]
      rw [answer, State.offer, consume_report, id]
    refine ⟨fun absent => ?_, fun p number => ⟨fun absent => ?_, fun idle full => ?_, fun idle room => ?_,
      fun c present call => ⟨fun busy => ?_, fun urgent normal => ?_⟩⟩⟩
    · have none : s.stationWith (BitVec.ofNat 14 n) = none := absent
      rw [none, consume_refuse]
    all_goals
      have number : s.stationWith (BitVec.ofNat 14 n) = some p := number
    · have room : s.offerRoom p emergency = .busy := by
        rw [State.offerRoom, absent]
      simp only [number, room, consume_refuse]
    · have free : s.offerRoom p emergency = .free := by
        rw [State.offerRoom, idle]
      have full : s.callsFull = true := decide_eq_true (ge_of_eq full)
      simp only [number, free, full, if_true, consume_refuse]
    · have free : s.offerRoom p emergency = .free := by
        rw [State.offerRoom, idle]
      have open_ : ¬ s.callsFull = true := fun full => absurd (of_decide_eq_true full) (not_le.mpr room)
      refine offered s p (by omega) ?_
      rw [exec_asked (i := .offerCall a low) (owner := offerCall) rfl rfl asked,
        offerCall_words s emergency ref one fits one' fits']
      simp only [number, free, if_neg open_]
    · have room : s.offerRoom p emergency = .busy := by
        rw [offerRoom_inCall present call, if_neg]
        rcases busy with plain | taken
        · rw [plain]
          exact Bool.false_ne_true
        · rw [taken, Bool.not_true, Bool.and_false]
          exact Bool.false_ne_true
      simp only [number, room, consume_refuse]
    · have room : s.offerRoom p emergency = .preempt c.id := by
        rw [offerRoom_inCall present call, urgent, normal]
        rfl
      have ended : s.endCall c.id callPreempted = s.callOver c 4 := endCall_eq s c 4 (callWith_of_callOf ok call)
      refine offered (s.callOver c 4) p (lt_of_le_of_lt ((callOver_length s c 4).trans ok.1) (by decide)) ?_
      rw [exec_asked (i := .offerCall a low) (owner := offerCall) rfl rfl asked,
        offerCall_words s emergency ref one fits one' fits']
      simp only [number, room, ended]
  · rw [exec_asked (i := .bridgeCall a low) (owner := bridgeCall) rfl rfl asked]
    rw [bridgeCall_words s nonzero]
    refine ⟨fun absent => ?_, fun c mem own => ?_⟩
    · rw [(callWith_none_iff s id).mpr absent, consume_refuse]
    · subst own
      have conflict : s.slotNamed tx = true ↔ ∃ i ∈ s.ring.inserts, i.slot = tx := slotNamed_iff s tx
      intro may named
      have bridgeable : c.bridgeable = true ↔ may := bridgeable_iff c
      rw [callWith_of_mem s c ok.2 mem]
      refine ⟨fun h => ?_, fun h k => ?_, fun h k => ?_⟩
      · simp only [if_pos (Bool.eq_false_iff.mpr (mt bridgeable.mp h)), consume_refuse]
      · have may : ¬ c.bridgeable = false := by
          rw [bridgeable.mpr h]
          decide
        simp only [if_neg may, if_pos (conflict.mpr k), consume_refuse]
      · have may : ¬ c.bridgeable = false := by
          rw [bridgeable.mpr h]
          decide
        refine ⟨s.bridged c tx rx, fun held => if_pos ((underHold_iff s c).mpr held),
          fun free => if_neg (mt (underHold_iff s c).mp free), ?_⟩
        simp only [if_neg may, if_neg (mt conflict.mp k), consume_ok]
        rw [bridge_eq ok.idsApart mem]

/-- Settles O50. -/
theorem callsEndAndAreRead : Obligations.CallsEndAndAreRead := by
  intro s a low id ok nonzero
  have found (c : Call) (mem : c ∈ s.icom.calls) : s.callWith c.id = some c := callWith_of_mem s c ok.2 mem
  have ended (c : Call) (mem : c ∈ s.icom.calls) (cause : Nat) :
      s.endCall c.id (BitVec.ofNat 4 cause) = s.callOver c cause := endCall_eq s c cause (found c mem)
  refine ⟨fun cause low high asked => ?_, fun asked => ?_, fun c mem own => ?_⟩
  · have value : (word cause).toNat = cause := word_toNat_of_lt _ (by omega)
    have inside : ¬ ((word cause).toNat < 10 ∨ 15 < (word cause).toNat) := by omega
    have narrow : (word cause).setWidth 4 = BitVec.ofNat 4 cause := by
      rw [word, BitVec.setWidth_ofNat_of_le (by decide)]
    rw [exec_asked (i := .endCall a _) (owner := endCallRequest) rfl rfl asked]
    simp only [endCallRequest, byteId_of_nonzero nonzero, if_neg inside, narrow]
    refine ⟨fun absent => ?_, fun c mem own => ?_⟩
    · rw [if_pos ((callWith_isNone_iff s id).mpr absent), consume_refuse]
    · subst own
      rw [found c mem, Option.isNone_some, if_neg Bool.false_ne_true, consume_ok, ended c mem]
  · rw [exec_asked (i := .readCall a low) (owner := readCall) rfl rfl asked]
    simp only [readCall, byteId_of_nonzero nonzero]
    refine ⟨fun absent => ?_, fun c mem own => ?_⟩
    · rw [(callWith_none_iff s id).mpr absent, consume_refuse]
    · subst own
      rw [found c mem, consume_report, Call.words]
      have wordB (n : DirNumber) : n.setWidth 16 = word n.toNat := by
        rw [word, ← BitVec.toNat_inj, BitVec.toNat_setWidth, BitVec.toNat_ofNat]
      cases c.parties with
      | loc _ _ => cases c.state <;> rfl
      | trunkOut _ n => simp only [CallParties.wordB, wordB n]; cases c.state <;> rfl
      | trunkIn _ n => simp only [CallParties.wordB, wordB n]; cases c.state <;> rfl
  · subst own
    refine ⟨fun rings long => ?_, fun held long => ?_, fun connected => ⟨?_, ?_⟩⟩
    · change Host.Outcome.next (callNoAnswer c.id s) = _
      simp only [callNoAnswer, found c mem]
      rw [if_pos ⟨rings, long⟩]
      exact congrArg _ (ended c mem 3)
    · change Host.Outcome.next (callHeldTooLong c.id s) = _
      simp only [callHeldTooLong, found c mem]
      rw [if_pos ⟨held, long⟩]
      exact congrArg _ (ended c mem 5)
    · change Host.Outcome.next (callNoAnswer c.id s) = _
      simp only [callNoAnswer, found c mem, connected]
      rfl
    · change Host.Outcome.next (callHeldTooLong c.id s) = _
      simp only [callHeldTooLong, found c mem, connected]
      rfl

end

section
/-! Key events in hand: calls and their answers, pages, volume. -/

namespace Sys2Proof.Machine

/-! ### The key event at the head of those in hand -/

section Head

variable {s : State} {p : Fin 32} {key : Key} {rest : List (Fin 32 × Key)}

theorem onKey_entry (keys : s.icom.keys = (p, key) :: rest) {e : Station} (entry : s.icom.table[p] = some e)
    (act : Station → State → State) : s.onKey p key act = act e (s.withKeys rest) := by
  have entry' : (s.setIcom { s.icom with keys := rest }).icom.table[p] = some e := entry
  simp only [State.onKey, keys, and_self, if_true, entry']
  rfl

theorem onKey_noEntry (keys : s.icom.keys = (p, key) :: rest) (entry : s.icom.table[p] = none)
    (act : Station → State → State) : s.onKey p key act = s.withKeys rest := by
  have entry' : (s.setIcom { s.icom with keys := rest }).icom.table[p] = none := entry
  simp only [State.onKey, keys, and_self, if_true, entry']
  rfl

end Head

/-! ### Calls from a key (R136, R144) -/

/-- The call that a station's key dials, in an emergency or not. -/
def State.dialled (s : State) (p : Fin 32) (n : DirNumber) (emergency : Bool) : State :=
  if emergency then s.dialEmergency p n else s.dial p n

theorem exec_dialKey {s : State} {p : Fin 32} {n : DirNumber} {emergency : Bool} {rest : List (Fin 32 × Key)} {e : Station}
    (entry : s.icom.table[p] = some e) (number : if emergency then n = s.ctl.settings.emergency else True)
    (keys : s.icom.keys = (p, if emergency then .emergency else .call n) :: rest) :
    exec (if emergency then .emergency p else .call p n) s = .next
      (if s.stationState p = .idle ∧ (emergency = true → n ≠ 0) then (s.withKeys rest).dialled p n emergency
        else s.withKeys rest) := by
  cases emergency with
  | true =>
    have number : n = s.ctl.settings.emergency := number
    change Host.Outcome.next (emergencyKey p s) = _
    rw [emergencyKey, onKey_entry (key := .emergency) keys entry, number]
    simp only [true_implies]
    rfl
  | false =>
    change Host.Outcome.next (callKey p n s) = _
    rw [callKey, onKey_entry (key := .call n) keys entry]
    simp only [Bool.false_eq_true, false_implies, and_true]
    rfl

section Dialled

variable {s : State} {p : Fin 32} {n : DirNumber}

theorem callsFull_iff (ok : s.callsOk) : s.callsFull = true ↔ s.icom.calls.length = 16 := by
  obtain ⟨capacity, -⟩ := ok
  rw [State.callsFull, decide_eq_true_iff]
  omega

theorem dialled_full (full : s.callsFull = true) : s.dialled p n false = s.withCue p 144000 := by
  simp only [State.dialled, State.dial, full, if_true]
  rfl

theorem dialled_self (found : s.stationWith n = some p) (emergency : Bool) :
    s.dialled p n emergency = s.withCue p 144000 := by
  cases emergency with
  | true =>
    simp only [State.dialled, State.dialEmergency, found, if_true]
    rfl
  | false =>
    simp only [State.dialled, State.dial, found, if_true, ite_self]
    rfl

theorem dialled_nobody_full (nobody : s.stationWith n = none) (full : s.callsFull = true) (emergency : Bool) :
    s.dialled p n emergency = s.withCue p 144000 := by
  cases emergency with
  | true =>
    simp only [State.dialled, State.dialEmergency, nobody, full, if_true]
    rfl
  | false => exact dialled_full full

theorem dialled_nobody (nobody : s.stationWith n = none) (room : ¬ s.callsFull = true) (emergency : Bool) :
    s.dialled p n emergency = s.createTrunkOut p n emergency := by
  cases emergency with
  | true => simp only [State.dialled, State.dialEmergency, nobody, if_neg room, if_true]
  | false => simp only [State.dialled, State.dial, nobody, if_neg room, Bool.false_eq_true, if_false]

section Other

variable {b : Fin 32} (other : b ≠ p) (found : s.stationWith n = some b)

include other found

theorem dialled_idle_full (idle : s.stationState b = .idle) (full : s.callsFull = true) (emergency : Bool) :
    s.dialled p n emergency = s.withCue p 144000 := by
  cases emergency with
  | true =>
    simp only [State.dialled, State.dialEmergency, found, if_neg other, idle, full, if_true]
    rfl
  | false => exact dialled_full full

theorem dialled_idle (idle : s.stationState b = .idle) (room : ¬ s.callsFull = true) (emergency : Bool) :
    s.dialled p n emergency = s.createCall (.loc p b) emergency 0 := by
  cases emergency with
  | true => simp only [State.dialled, State.dialEmergency, found, if_neg other, idle, if_neg room, if_true]
  | false =>
    simp only [State.dialled, State.dial, found, if_neg other, idle, if_neg room, if_true, Bool.false_eq_true, if_false]

theorem dialled_absent (absent : s.stationState b = .absent) (emergency : Bool) :
    s.dialled p n emergency = s.withCue p 144000 := by
  cases emergency with
  | true =>
    simp only [State.dialled, State.dialEmergency, found, if_neg other, absent, if_true]
    rfl
  | false =>
    simp only [State.dialled, State.dial, found, if_neg other, absent, reduceCtorEq, if_false, ite_self, Bool.false_eq_true]
    rfl

theorem dialled_busy (busy : s.stationState b ≠ .idle) : s.dialled p n false = s.withCue p 144000 := by
  simp only [State.dialled, State.dial, found, if_neg other, if_neg busy, ite_self, Bool.false_eq_true, if_false]
  rfl

theorem dialled_inCall {c : Call} (call : s.callOf b = some c) (present : s.stationState b ≠ .absent) :
    s.dialled p n true = if c.emergency then s.withCue p 144000
      else (s.endCall c.id callPreempted).createCall (.loc p b) true 0 := by
  have busy := stationState_of_callOf call
  simp only [State.dialled, State.dialEmergency, found, if_neg other, call, if_true]
  cases state : s.stationState b with
  | absent => exact absurd state present
  | idle => exact absurd state busy
  | _ => rfl

end Other

end Dialled

theorem createTrunkOut_eq (s : State) (p : Fin 32) (n : DirNumber) (emergency : Bool) :
    s.createTrunkOut p n emergency =
      (s.createCall (.trunkOut p n) emergency 0).withEvent .callWanted s.nextCallId.toNat 0 := by
  have id : s.nextCallId.setWidth 16 = BitVec.ofNat 16 s.nextCallId.toNat := by
    rw [← BitVec.toNat_inj, BitVec.toNat_setWidth, BitVec.toNat_ofNat]
  rw [State.createTrunkOut, id]
  exact post_eq _ _ _ 0

/-! ### ANSWER and HANG UP -/

theorem exec_answerKey {s : State} {p : Fin 32} {rest : List (Fin 32 × Key)} {e : Station}
    (keys : s.icom.keys = (p, .answer) :: rest) (entry : s.icom.table[p] = some e) :
    exec (.answer p) s = .next (match s.stationState p, s.callOf p with
      | .ringing, some c => (s.withKeys rest).answerCall p c
      | _, _ => s.withKeys rest) := by
  change Host.Outcome.next (answerKey p s) = _
  rw [answerKey, onKey_entry keys entry]
  rfl

theorem exec_hangUpKey {s : State} {p : Fin 32} {rest : List (Fin 32 × Key)} {e : Station}
    (keys : s.icom.keys = (p, .hangUp) :: rest) (entry : s.icom.table[p] = some e) :
    exec (.hangUp p) s = .next (match s.stationState p, s.callOf p with
      | .absent, _ => s.withKeys rest
      | .idle, _ => (s.withKeys rest).setCue p 0
      | _, some c => (s.withKeys rest).endCall c.id (c.hangUpCause p)
      | _, none => s.withKeys rest) := by
  change Host.Outcome.next (hangUpKey p s) = _
  rw [hangUpKey, onKey_entry keys entry]
  rfl

/-- The cue timer of a station says nothing of what it listens to. -/
theorem underHold_withCue (s : State) (p : Fin 32) (n : Nat) (c : Call) : (s.withCue p n).underHold c = s.underHold c := by
  have listen (q : Fin 32) : (s.withCue p n).listenZone q = s.listenZone q := by
    change ((put s.icom.table p _)[q]).bind (·.listen) = _
    rw [put_get]
    by_cases own : q = p
    · rw [if_pos own, own, State.listenZone]
      cases s.icom.table[p] <;> rfl
    · rw [if_neg own, State.listenZone]
  simp only [State.underHold, listen]
  rfl

theorem connect_held {s : State} {c : Call} (held : s.underHold c = true) :
    s.connect c = s.updateCall c.id (fun x => { x with state := .held, holdTimer := 0 }) := by
  simp only [State.connect, held, if_true]

theorem connect_free {s : State} {c : Call} (free : s.underHold c = false) :
    s.connect c = s.updateCall c.id (fun x => { x with state := .connected }) := by
  simp only [State.connect, free, Bool.false_eq_true, if_false]

theorem answerCall_local (s : State) (p : Fin 32) {c : Call} (inside : ∃ a b, c.parties = .loc a b) :
    s.answerCall p c = (s.withCue p 0).connect c := by
  obtain ⟨a, b, parties⟩ := inside
  simp only [State.answerCall, parties, setCue_eq]

theorem answerCall_trunk (s : State) (p : Fin 32) {c : Call} (outside : ∀ a b, c.parties ≠ .loc a b) :
    s.answerCall p c = ((s.withCue p 0).updateCall c.id (fun x => { x with answered := true })).withEvent
      .callAnswered c.id.toNat 0 := by
  have id : c.id.setWidth 16 = BitVec.ofNat 16 c.id.toNat := by
    rw [← BitVec.toNat_inj, BitVec.toNat_setWidth, BitVec.toNat_ofNat]
  unfold State.answerCall
  split
  · exact absurd ‹_› (outside _ _)
  · rw [id, setCue_eq]
    exact post_eq _ _ _ 0

theorem hangUpCause_eq (c : Call) (p : Fin 32) : c.hangUpCause p = BitVec.ofNat 4 (match c.state, c.parties with
    | .wanted, _ => 2
    | .ringing, .loc a _ => if p = a then 2 else 1
    | .ringing, .trunkOut _ _ => 2
    | _, _ => 1) := by
  unfold Call.hangUpCause
  cases c.state with
  | ringing =>
    cases c.parties with
    | loc a b => by_cases own : p = a <;> simp only [own, if_true, if_false] <;> rfl
    | trunkOut a n => rfl
    | trunkIn a n => rfl
  | _ => rfl

/-! ### Pages and volume -/

theorem pressRefused_iff (s : State) (p : Fin 32) (e : Station) : s.pressRefused p e = true ↔
    (∃ q ∈ s.pages.queue, q.id = BitVec.ofNat 16 (65280 + p.val)) ∨ 32 ≤ s.pages.queue.length ∨ e.pageGroup = 0 := by
  rw [State.pressRefused, Bool.or_eq_true, Bool.or_eq_true, page_isSome_iff, decide_eq_true_iff, beq_iff_eq, or_assoc]
  rfl

theorem exec_pagePressKey {s : State} {p : Fin 32} {rest : List (Fin 32 × Key)} {e : Station}
    (keys : s.icom.keys = (p, .pagePress) :: rest) (entry : s.icom.table[p] = some e) :
    exec (.pagePress p) s = .next (
      if s.stationState p = .absent then s.withKeys rest
      else if s.pressRefused p e then
        if s.stationState p = .idle then (s.withKeys rest).withCue p 144000 else s.withKeys rest
      else ((s.withKeys rest).withCue p 0).enqueue (stationPage p e)) := by
  change Host.Outcome.next (pagePressKey p s) = _
  rw [pagePressKey, onKey_entry keys entry]
  change Host.Outcome.next (match s.stationState p with
      | .absent => s.withKeys rest
      | st =>
        if s.pressRefused p e then if st = StationState.idle then (s.withKeys rest).withCue p 144000 else s.withKeys rest
        else ((s.withKeys rest).withCue p 0).enqueue (stationPage p e)) = _
  cases s.stationState p <;> rfl

theorem exec_pageReleaseKey {s : State} {p : Fin 32} {rest : List (Fin 32 × Key)} {e : Station}
    (keys : s.icom.keys = (p, .pageRelease) :: rest) (entry : s.icom.table[p] = some e) :
    exec (.pageRelease p) s = .next (
      if s.stationState p = .absent then s.withKeys rest
      else ((s.withKeys rest).withCue p 0).releaseStationPage p) := by
  change Host.Outcome.next (pageReleaseKey p s) = _
  rw [pageReleaseKey, onKey_entry keys entry]
  change Host.Outcome.next (match s.stationState p with
      | .absent => s.withKeys rest
      | _ => ((s.withKeys rest).withCue p 0).releaseStationPage p) = _
  cases s.stationState p <;> rfl

theorem trimBy_eq (l : ZoneLocal) (quieter : Bool) : l.trimBy quieter = { l with
    trimStep := if quieter then (if l.trimStep < l.trimLimit then l.trimStep + 1 else l.trimStep)
      else l.trimStep - 1 } := by
  cases quieter with
  | true => by_cases room : l.trimStep < l.trimLimit <;> simp [ZoneLocal.trimBy, room]
  | false => rfl

theorem volumeKey_entry {s : State} {p : Fin 32} {rest : List (Fin 32 × Key)} {e : Station} {key : Key}
    (keys : s.icom.keys = (p, key) :: rest) (entry : s.icom.table[p] = some e) (quieter : Bool) :
    volumeKey p key quieter s =
      match s.stationState p, e.volumeZone with
      | .absent, _ => s.withKeys rest
      | _, some z => (s.withKeys rest).trimRequest z quieter
      | _, none => s.withKeys rest := by
  rw [volumeKey, onKey_entry keys entry]
  rfl

/-! ### The outcome of a poll -/

/-- A port that its third miss makes ABSENT, with STATION LOST posted. -/
def State.stationGone (s : State) (p : Fin 32) : State :=
  State.withEvent { s with icom := { s.icom with
    presence := put s.icom.presence p { present := false, misses := 3 } } } .stationLost p.val 0

/-- A port that has gone, its call ended. -/
def State.stationCut (s : State) (p : Fin 32) : State :=
  match s.callOf p with
  | some c => (s.stationGone p).endCall c.id callStationLost
  | none => s.stationGone p

theorem endCall_table (s : State) (id : CallId) (cause : BitVec 4) (q : Fin 32) :
    (s.endCall id cause).icom.table[q] = s.icom.table[q] ∨
      (s.endCall id cause).icom.table[q] = (s.icom.table[q]).map (fun e => { e with cueTimer := 0, cueDue := false }) := by
  cases found : s.callWith id with
  | none => exact .inl (by rw [endCall_none s id cause found])
  | some c =>
    rw [endCall_of_some found]
    change (mapTable _ s.icom.table)[q] = _ ∨ (mapTable _ s.icom.table)[q] = _
    rw [mapTable_get]
    split
    · exact .inr rfl
    · exact .inl rfl

theorem endCall_events (s : State) (id : CallId) (cause : BitVec 4) : s.ctl.events <+: (s.endCall id cause).ctl.events := by
  cases found : s.callWith id with
  | none => rw [endCall_none s id cause found]
  | some c =>
    rw [endCall_of_some found, State.callOver, ← post_eq]
    exact post_events_prefix _ _ _ _

theorem endCall_removed (s : State) (id : CallId) (cause : BitVec 4) : ∀ y ∈ (s.endCall id cause).icom.calls, y.id ≠ id := by
  intro y mem
  cases found : s.callWith id with
  | none =>
    rw [endCall_none s id cause found] at mem
    exact (callWith_none_iff s id).mp found y mem
  | some c =>
    obtain ⟨-, rfl⟩ := callWith_some found
    rw [endCall_of_some found] at mem
    simpa using (List.mem_filter.mp mem).2

section Cut

variable (s : State) (p : Fin 32)

theorem stationCut_frame : CallsFrame (s.stationGone p) (s.stationCut p) := by
  unfold State.stationCut
  split
  · exact endCall_callsFrame _ _ _
  · exact .refl _

theorem stationCut_events : (s.stationGone p).ctl.events <+: (s.stationCut p).ctl.events := by
  unfold State.stationCut
  split
  · exact endCall_events _ _ _
  · exact List.prefix_rfl

theorem stationCut_table : (s.stationCut p).icom.table[p] = s.icom.table[p] ∨
    (s.stationCut p).icom.table[p] = (s.icom.table[p]).map (fun e => { e with cueTimer := 0, cueDue := false }) := by
  unfold State.stationCut
  split
  · exact endCall_table (s.stationGone p) _ _ p
  · exact .inl rfl

theorem stationCut_calls {c : Call} (call : s.callOf p = some c) : ∀ y ∈ (s.stationCut p).icom.calls, y.id ≠ c.id := by
  unfold State.stationCut
  rw [call]
  exact endCall_removed _ _ _

theorem stationCut_eq (ok : s.callsOk) : s.stationCut p = match s.callOf p with
    | some c => (s.stationGone p).callOver c 6
    | none => s.stationGone p := by
  unfold State.stationCut
  cases call : s.callOf p with
  | none => rfl
  | some c => exact endCall_eq (s.stationGone p) c 6 (callWith_of_callOf (s := s) ok call)

end Cut

theorem stationLost_third {s : State} {p : Fin 32} (present : (s.icom.presence[p]).present = true)
    (misses : (s.icom.presence[p]).misses = 3) : stationLost p s =
      match (s.stationCut p).icom.table[p] with
      | some _ => ((s.stationCut p).withCue p 0).loseStationPage p
      | none => s.stationCut p := by
  have gone : (s.setIcom { s.icom with
      presence := put s.icom.presence p { s.icom.presence[p] with present := false } }).post .stationLost
        (BitVec.ofNat 16 p.val) 0 = s.stationGone p := by
    simp only [misses]
    exact post_eq _ _ _ 0
  simp only [stationLost]
  rw [if_pos ⟨present, misses⟩, gone]
  rfl

theorem stationCut_noEntry {s : State} {p : Fin 32} (entry : s.icom.table[p] = none) :
    (s.stationCut p).icom.table[p] = none := by
  rcases stationCut_table s p with same | off
  · rw [same, entry]
  · rw [off, entry]
    rfl

theorem stationCut_entry {s : State} {p : Fin 32} {e : Station} (entry : s.icom.table[p] = some e) :
    ∃ e', (s.stationCut p).icom.table[p] = some e' ∧
      { e' with cueTimer := 0, cueDue := false } = { e with cueTimer := 0, cueDue := false } := by
  rcases stationCut_table s p with same | off
  · exact ⟨e, by rw [same, entry], rfl⟩
  · exact ⟨{ e with cueTimer := 0, cueDue := false }, by rw [off, entry]; rfl, rfl⟩

theorem loseStationPage_frame (s : State) (p : Fin 32) : PagesFrame s (s.loseStationPage p) := by
  unfold State.loseStationPage
  split
  · exact endPage_pagesFrame _ _ _
  · exact .refl _

theorem loseStationPage_gone (s : State) (p : Fin 32) :
    ∀ q ∈ (s.loseStationPage p).pages.queue, q.id.toNat ≠ 65280 + p.val := by
  intro q mem at_
  rw [← stationPageId_eq_iff] at at_
  unfold State.loseStationPage at mem
  split at mem
  · next r found =>
    obtain ⟨-, id⟩ := page_some found
    have ids : q.id ∈ (s.endPage r.id pageSourceLostCause).pages.queue.map (·.id) := List.mem_map_of_mem mem
    rw [endPage_ids, List.mem_filter] at ids
    simp [at_, id] at ids
  · next found => exact page_none_iff.mp found q mem at_

end Sys2Proof.Machine

open Sys2Proof Sys2Proof.Machine

/-- Settles O45: what a dialled number finds, case by case. -/
theorem callKeysCreateCalls : Obligations.CallKeysCreateCalls := by
  refine ⟨fun s p n rest none => ⟨fun keys => ?_, fun keys => ?_⟩, fun s p n emergency rest e ok entry number keys => ?_⟩
  · exact congrArg Host.Outcome.next (onKey_noEntry keys none _)
  · exact congrArg Host.Outcome.next (onKey_noEntry keys none _)
  · intro i u full found createdFrom
    have run : exec i s = .next (if s.stationState p = StationState.idle ∧ (emergency = true → n ≠ 0) then
        u.dialled p n emergency else u) := exec_dialKey entry number keys
    have ok' : u.callsOk := ok
    have isFull : u.callsFull = true ↔ full := callsFull_iff ok'
    have created (v : State) (room : v.icom.calls.length < 255) (b : Fin 32)
        (ran : exec i s = .next (v.createCall (.loc p b) emergency 0)) : createdFrom v (.loc p b) .ringing :=
      ⟨_, v.nextCallId, createCall_created room (.loc p b) emergency 0, ran⟩
    refine ⟨fun busy => ?_, fun idle urgent zero => ?_, fun idle nonzero => ?_⟩
    · rw [run, if_neg fun h => busy h.1]
    · rw [run, if_neg fun h => h.2 urgent zero]
    · have dials : exec i s = .next (u.dialled p n emergency) := by rw [run, if_pos ⟨idle, nonzero⟩]
      refine ⟨fun plain h => ?_, fun own => ?_, fun nobody h => ?_, fun nobody h => ?_, fun b other at_ =>
        ⟨fun free h => ?_, fun free h => ?_, fun absent => ?_, fun busy plain => ?_, fun c call present urgent =>
          ⟨fun taken => ?_, fun normal => ?_⟩⟩⟩
      · rw [dials, plain, dialled_full (isFull.mpr h)]
      · rw [dials, dialled_self (s := u) own]
      · rw [dials, dialled_nobody_full (s := u) nobody (isFull.mpr h)]
      · refine ⟨_, u.nextCallId,
          createCall_created (s := u) (lt_of_le_of_lt ok.1 (by decide)) (.trunkOut p n) emergency 0, ?_⟩
        rw [dials, dialled_nobody (s := u) nobody (mt isFull.mp h), createTrunkOut_eq]
        rfl
      · rw [dials, dialled_idle_full (s := u) other at_ free (isFull.mpr h)]
      · exact created u (lt_of_le_of_lt ok.1 (by decide)) b (by rw [dials, dialled_idle (s := u) other at_ free (mt isFull.mp h)])
      · rw [dials, dialled_absent (s := u) other at_ absent]
      · rw [dials, plain, dialled_busy (s := u) other at_ busy]
      · rw [dials, urgent, dialled_inCall (s := u) other at_ call present, if_pos taken]
      · have ended : u.endCall c.id callPreempted = u.callOver c 4 := endCall_eq u c 4 (callWith_of_callOf ok' call)
        refine created (u.callOver c 4) (lt_of_le_of_lt ((callOver_length u c 4).trans ok.1) (by decide)) b ?_
        rw [dials, urgent, dialled_inCall (s := u) other at_ call present, if_neg (by rw [normal]; decide), ended]

/-- Settles O46. -/
theorem answerAndHangUpMoveTheCall : Obligations.AnswerAndHangUpMoveTheCall := by
  refine ⟨fun s p rest none => ⟨fun keys => ?_, fun keys => ?_⟩, fun s p rest e ok entry => ?_⟩
  · exact congrArg Host.Outcome.next (onKey_noEntry keys none _)
  · exact congrArg Host.Outcome.next (onKey_noEntry keys none _)
  · intro u
    refine ⟨fun keys => ?_, fun keys => ?_⟩
    · rw [exec_answerKey keys entry]
      refine ⟨fun other => ?_, fun c ringing call => ?_⟩
      · split
        · exact absurd ‹_› other
        · rfl
      · intro t changed
        rw [ringing, call]
        refine ⟨fun ⟨a, b, local_⟩ => ⟨fun held => ?_, fun free => ?_⟩, fun trunk => ?_⟩
        · have hold : t.underHold c = true := (underHold_withCue u p 0 c).trans ((underHold_iff s c).mpr held)
          exact congrArg _ ((answerCall_local u p ⟨a, b, local_⟩).trans (connect_held hold))
        · have hold : t.underHold c = false :=
            (underHold_withCue u p 0 c).trans (Bool.eq_false_iff.mpr (mt (underHold_iff s c).mp free))
          exact congrArg _ ((answerCall_local u p ⟨a, b, local_⟩).trans (connect_free hold))
        · exact congrArg _ (answerCall_trunk u p trunk)
    · rw [exec_hangUpKey keys entry]
      refine ⟨fun absent => ?_, fun idle => ?_, fun c present call => ?_⟩
      · rw [absent]
      · rw [idle]
        rfl
      · have busy := stationState_of_callOf call
        have ended : u.endCall c.id (c.hangUpCause p) = _ :=
          (congrArg (u.endCall c.id) (hangUpCause_eq c p)).trans (endCall_eq u c _ (callWith_of_callOf (s := u) ok call))
        rw [call]
        refine Eq.trans ?_ (congrArg Host.Outcome.next ended)
        cases state : s.stationState p with
        | absent => exact absurd state present
        | idle => exact absurd state busy
        | _ => rfl

/-- Settles O47. -/
theorem pageAndVolumeKeysActForTheirStation : Obligations.PageAndVolumeKeysActForTheirStation := by
  refine ⟨fun s p rest none => ⟨fun keys => ?_, fun keys => ?_, fun keys => ?_, fun keys => ?_⟩,
    fun s p rest e entry => ?_⟩
  · exact congrArg Host.Outcome.next (onKey_noEntry keys none _)
  · exact congrArg Host.Outcome.next (onKey_noEntry keys none _)
  · exact congrArg Host.Outcome.next (onKey_noEntry keys none _)
  · exact congrArg Host.Outcome.next (onKey_noEntry keys none _)
  · intro u own absent refused
    have pressRefused : s.pressRefused p e = true ↔ refused := pressRefused_iff s p e
    refine ⟨fun keys => ?_, fun keys => ?_, fun down keys => ?_⟩
    · rw [exec_pagePressKey keys entry]
      refine ⟨fun h => ?_, fun idle h => ?_, fun h busy k => ?_, fun h k => ?_⟩
      · rw [if_pos h]
      · rw [if_neg (by rw [idle]; decide), if_pos (pressRefused.mpr h), if_pos idle]
      · rw [if_neg h, if_pos (pressRefused.mpr k), if_neg busy]
      · intro page
        obtain ⟨before, after, split, joined, below, above⟩ := insertPage_split page s.pages.queue
        refine ⟨before, after, split, below, above, ?_⟩
        rw [if_neg h, if_neg (mt pressRefused.mp k), ← joined]
        rfl
    · rw [exec_pageReleaseKey keys entry]
      refine ⟨fun h => ?_, fun h empty => ?_, fun before after q h queue id first => ?_⟩
      · rw [if_pos h]
      · have missing : (u.withCue p 0).page (stationPageId p) = none := page_none_iff.mpr empty
        rw [if_neg h, State.releaseStationPage, missing]
      · have id : q.id = stationPageId p := id
        obtain ⟨found, -⟩ := page_first (s := u.withCue p 0) queue (fun r mem => id ▸ first r mem)
        have ended : (u.withCue p 0).endPage q.id (if q.state = .playing then pageCompleted else pageCancelled) =
            (u.withCue p 0).pageOver q (if q.state = .playing then 1 else 2) := by
          split
          · exact endPage_first found 1
          · exact endPage_first found 2
        rw [if_neg h, State.releaseStationPage, ← id, found]
        exact congrArg _ ended
    · intro i
      have ran : exec i s = .next (volumeKey p (if down then .volumeDown else .volumeUp) down s) := by
        cases down <;> rfl
      rw [ran, volumeKey_entry keys entry]
      refine ⟨fun h => ?_, fun z h zone => ?_⟩
      · rcases h with h | none
        · rw [show s.stationState p = .absent from h]
        · rw [none]
          cases s.stationState p <;> rfl
      · intro l
        have present : s.stationState p ≠ .absent := h
        have trimmed := trimBy_eq (s.mix.zoneLocal[z]) down
        rw [zone]
        cases state : s.stationState p with
        | absent => exact absurd state present
        | _ => exact congrArg (fun l => Host.Outcome.next (u.setMix { s.mix with zoneLocal := put s.mix.zoneLocal z l })) trimmed

/-- Settles O44: a lost station by its call, its entry and its page. -/
theorem pollOutcomesMovePresence : Obligations.PollOutcomesMovePresence := by
  intro s p x seen
  refine ⟨fun keys awaiting => ⟨fun present => ?_, fun absent => ?_⟩, fun awaiting few => ?_, fun awaiting three => ?_,
    fun present three => ?_, fun e entry due => ?_⟩
  · change Host.Outcome.next (pollReply p keys s) = _
    have present : (s.icom.presence[p]).present = true := present
    simp only [pollReply, awaiting, if_true, present]
    rfl
  · change Host.Outcome.next (pollReply p keys s) = _
    have absent : (s.icom.presence[p]).present = false := absent
    simp only [pollReply, awaiting, if_true, absent]
    exact congrArg _ (post_eq _ _ _ 0)
  · change Host.Outcome.next (pollMiss p s) = _
    have count : min 3 ((s.icom.presence[p]).misses + 1) = x.misses + 1 := min_eq_right (Nat.succ_le_succ few)
    simp only [pollMiss, awaiting, if_true, count, seen, List.map_nil, List.append_nil]
    rfl
  · change Host.Outcome.next (pollMiss p s) = _
    have count : min 3 ((s.icom.presence[p]).misses + 1) = 3 := min_eq_left ((ge_of_eq three).trans (Nat.le_succ _))
    simp only [pollMiss, awaiting, if_true, count, seen, List.map_nil, List.append_nil]
    rfl
  · intro gone
    change (_ → _ → Host.Outcome.next (stationLost p s) = _) ∧ ∃ t, Host.Outcome.next (stationLost p s) = _ ∧ _
    rw [stationLost_third present three]
    refine ⟨fun none empty => ?_, ?_⟩
    · rw [stationCut_noEntry empty, State.stationCut, none]
      rfl
    · have frame := (stationCut_frame s p).rest
      cases entry : s.icom.table[p] with
      | none =>
        rw [stationCut_noEntry entry]
        refine ⟨_, rfl, ?_, fun _ => stationCut_events s p, fun c call => stationCut_calls s p call,
          fun e none => absurd none (by simp), ?_, ?_, ?_, fun callsOk _ => ⟨fun _ => stationCut_eq s p callsOk,
            fun some => absurd rfl some, fun some => absurd rfl some⟩⟩
        all_goals rw [frame]
        · rfl
        · rfl
        · rfl
        · rfl
      | some e =>
        obtain ⟨e', cut, off⟩ := stationCut_entry entry
        rw [cut]
        have lost := loseStationPage_frame ((s.stationCut p).withCue p 0) p
        refine ⟨_, rfl, ?_, fun _ => (stationCut_events s p).trans lost.events, fun c call => ?_, fun d some => ⟨?_, ?_⟩,
          ?_, ?_, ?_, fun callsOk pagesOk => ⟨fun none => absurd none (by simp), fun _ none => ?_, fun _ q mem id => ?_⟩⟩
        · rw [lost.icom]
          change (s.stationCut p).icom.presence = _
          rw [frame]
          rfl
        · rw [lost.icom]
          exact stationCut_calls s p call
        · rw [lost.icom, ← Option.some.inj some, ← off]
          change (put (s.stationCut p).icom.table p _)[p] = _
          rw [put_get_self, cut]
          rfl
        · exact loseStationPage_gone _ p
        · rw [lost.mix]
          change (s.stationCut p).mix = _
          rw [frame]
          rfl
        · rw [lost.alarm]
          change (s.stationCut p).alarm = _
          rw [frame]
          rfl
        · rw [lost.memory]
          change (s.stationCut p).clips.memory = _
          rw [frame]
          rfl
        all_goals
          have pages : ((s.stationCut p).withCue p 0).pages = s.pages := by
            change (s.stationCut p).pages = _
            rw [frame]
            rfl
        · have missing : ((s.stationCut p).withCue p 0).page (stationPageId p) = Option.none := by
            rw [page_none_iff, pages]
            exact fun q mem id => none q mem ((stationPageId_eq_iff q.id p).mp id)
          rw [State.loseStationPage, missing]
          exact congrArg (State.withCue · p 0) (stationCut_eq s p callsOk)
        · have apart : ((s.stationCut p).withCue p 0).pageIdsApart := by
            rw [State.pageIdsApart, pages]
            exact pagesOk.idsApart
          have mem' : q ∈ ((s.stationCut p).withCue p 0).pages.queue := by
            rw [pages]
            exact mem
          rw [State.loseStationPage, ← (stationPageId_eq_iff q.id p).mpr id, page_of_mem apart mem']
          exact (endPage_eq apart mem' 5).trans
            (congrArg (fun t : State => (t.withCue p 0).pageOver q 5) (stationCut_eq s p callsOk))
  · change Host.Outcome.next (cueTimerExpiry p s) = _
    rw [cueTimerExpiry, entry]
    exact congrArg _ (if_pos due)

end

section
/-! The tables of the alarm engine: patterns, contact lines and groups. -/

namespace Sys2Proof.Machine

/-! ### How a pattern plays (R151) -/

theorem steps_zero (a : Alarm) : a.steps 0 = Vector.replicate 16 none := rfl

theorem steps_succ (a : Alarm) {p : Fin 8} {q : Fin 7} (h : q.val + 1 = p.val) : a.steps p = a.patterns[q] := by
  have some : 1 ≤ p.val := by omega
  have index : p.val - 1 = q.val := by omega
  rw [Alarm.steps, dif_pos some]
  simp only [index]
  rfl

theorem loaded_iff (a : Alarm) (p : Fin 8) :
    a.loaded p = true ↔ ∃ (q : Fin 7) (i : Fin 16), q.val + 1 = p.val ∧ (a.patterns[q])[i] ≠ none := by
  rw [Alarm.loaded, List.any_eq_true]
  simp only [mem_indices, true_and, Option.isSome_iff_ne_none]
  refine ⟨fun ⟨i, loaded⟩ => ?_, fun ⟨q, i, pattern, loaded⟩ => ⟨i, by rw [steps_succ a pattern]; exact loaded⟩⟩
  by_cases zero : p.val = 0
  · have own : p = 0 := Fin.ext zero
    rw [own, steps_zero] at loaded
    simp at loaded
  · have pattern : (⟨p.val - 1, by omega⟩ : Fin 7).val + 1 = p.val := by
      change p.val - 1 + 1 = p.val
      omega
    exact ⟨⟨p.val - 1, by omega⟩, i, pattern, by rw [← steps_succ a pattern]; exact loaded⟩

theorem stepAt_unloaded {a : Alarm} {p : Fin 8} (none : a.loaded p = false) (n : Nat) : a.stepAt p n = builtInStep := by
  rw [Alarm.stepAt, none]
  rfl

theorem stepAt_loaded {a : Alarm} {p : Fin 8} (some : a.loaded p = true) (i : Fin 16) :
    a.stepAt p i.val = ((a.steps p)[i]).getD unloadedStep := by
  rw [Alarm.stepAt, if_pos some, dif_pos i.isLt]
  rfl

theorem length_unloaded {a : Alarm} {p : Fin 8} (none : a.loaded p = false) : a.length p = 1 := by
  rw [Alarm.length, none]
  rfl

theorem length_last {a : Alarm} {p : Fin 8} (some : a.loaded p = true) {i : Fin 16}
    (last : ((a.steps p)[i]).any (·.last) = true) (lowest : ∀ j : Fin 16, j < i → ((a.steps p)[j]).any (·.last) = false) :
    a.length p = i.val + 1 := by
  have found : (indices 16).find? (fun i => ((a.steps p)[i]).any (·.last)) = Option.some i :=
    (find_indices_iff _ i).mpr ⟨last, lowest⟩
  rw [Alarm.length, if_pos some, found]
  rfl

theorem length_noLast {a : Alarm} {p : Fin 8} (some : a.loaded p = true)
    (none : ∀ j : Fin 16, ((a.steps p)[j]).any (·.last) = false) : a.length p = 16 := by
  have missing : (indices 16).find? (fun i => ((a.steps p)[i]).any (·.last)) = Option.none :=
    List.find?_eq_none.mpr fun j _ => by simp only [none j, Bool.false_eq_true, not_false_eq_true]
  rw [Alarm.length, if_pos some, missing]
  rfl

/-! ### SET PATTERN STEP, SET CONTACT, SET GROUP -/

theorem bit_eq (w : Word16) (k : Nat) : w.getLsbD k = decide (w.toNat / 2 ^ k % 2 = 1) := by
  rw [BitVec.getLsbD, Nat.testBit_eq_decide_div_mod_eq]

theorem patternInUse_iff (a : Alarm) (p : Fin 7) : a.patternInUse p.succ = true ↔
    ∃ (e : Fin 8) (r : AlarmRec), a.records[e] = some r ∧ r.sounding = true ∧ r.pattern.val = p.val + 1 := by
  have named (q : Fin 8) : q = p.succ ↔ q.val = p.val + 1 := Fin.ext_iff
  simp only [Alarm.patternInUse, List.any_eq_true, mem_indices, true_and, Option.any_eq_true, Bool.and_eq_true,
    beq_iff_eq, named]

theorem setPatternStep_words (s : State) (p : Fin 7) (i : Fin 16) (last : Bool) {mode : StepMode} {m : Nat}
    (coded : stepMode m = some mode) (small : m < 3) {duration n1 n2 hi lo : Word16} (range : hi.toNat ≤ 127) :
    setPatternStep [word (256 * (p.val + 1) + 16 * i.val + (if last then 4 else 0) + m), duration, n1, n2, hi, lo] s =
      if s.alarm.patternInUse p.succ then .refuse .inUse s
      else .ok (s.setAlarm (s.alarm.load p i
        { mode := mode, duration := clampTo 1 1000 duration.toNat, n1 := n1.toNat, n2 := n2.toNat
          amplitude := wide hi lo, last := last })) := by
  have flag : (if last then 4 else 0) = 4 * last.toNat := by cases last <;> rfl
  have bound : last.toNat ≤ 1 := Bool.toNat_le last
  rw [flag]
  have value : (word (256 * (p.val + 1) + 16 * i.val + 4 * last.toNat + m)).toNat =
      256 * (p.val + 1) + 16 * i.val + 4 * last.toNat + m := word_toNat_of_lt _ (by omega)
  generalize word (256 * (p.val + 1) + 16 * i.val + 4 * last.toNat + m) = w at value
  have pattern : codedIndex 1 7 (w >>> 8) = some p := by
    have shifted : w >>> 8 = word (1 + p.val) := BitVec.eq_of_toNat_eq (by
      rw [BitVec.toNat_ushiftRight, value, word_toNat_of_lt _ (by omega), Nat.shiftRight_eq_div_pow]
      omega)
    rw [shifted, codedIndex_word p (by decide)]
  have modeField : field w 0 2 = m := by
    rw [field_eq, value]
    omega
  have position : (w.extractLsb' 4 4).toFin = i := Fin.ext (by
    change (w.extractLsb' 4 4).toNat = i.val
    rw [BitVec.extractLsb'_toNat, value, Nat.shiftRight_eq_div_pow]
    omega)
  have reserved : w.getLsbD 3 = false := by
    rw [bit_eq, value]
    exact decide_eq_false (by omega)
  have lastBit : w.getLsbD 2 = last := by
    rw [bit_eq, value]
    cases last with
    | true => exact decide_eq_true (by simp only [Bool.toNat_true]; omega)
    | false => exact decide_eq_false (by simp only [Bool.toNat_false]; omega)
  have inside : ¬ (w.getLsbD 3 = true ∨ 127 < hi.toNat) := by
    rw [reserved]
    exact not_or.mpr ⟨Bool.false_ne_true, not_lt.mpr range⟩
  simp only [setPatternStep, pattern, modeField, coded, if_neg inside, position, lastBit]

theorem alarmClass_rank (c : AlarmClass) : alarmClass c.rank = some c ∧ c.rank < 4 := by
  cases c <;> decide

theorem setContact_words (s : State) (k : Fin 4) (cls : AlarmClass) (group pattern : Fin 8) (broadcast : Bool) :
    setContact [word k.val, word (cls.rank + 4 * group.val + 32 * pattern.val + if broadcast then 256 else 0)] s =
      .ok (s.setContact k { s.alarm.contacts[k] with
        cls := cls, group := group, pattern := pattern, broadcast := broadcast }) := by
  obtain ⟨coded, small⟩ := alarmClass_rank cls
  have flag : (if broadcast then 256 else 0) = 256 * broadcast.toNat := by cases broadcast <;> rfl
  have bound : broadcast.toNat ≤ 1 := Bool.toNat_le broadcast
  rw [flag]
  have value : (word (cls.rank + 4 * group.val + 32 * pattern.val + 256 * broadcast.toNat)).toNat =
      cls.rank + 4 * group.val + 32 * pattern.val + 256 * broadcast.toNat := word_toNat_of_lt _ (by omega)
  generalize word (cls.rank + 4 * group.val + 32 * pattern.val + 256 * broadcast.toNat) = w at value
  have classField : field w 0 2 = cls.rank := by
    rw [field_eq, value]
    omega
  have reserved : ¬ field w 9 7 ≠ 0 := by
    rw [field_eq, value]
    omega
  have groupField : (w.extractLsb' 2 3).toFin = group := Fin.ext (by
    change (w.extractLsb' 2 3).toNat = group.val
    rw [BitVec.extractLsb'_toNat, value, Nat.shiftRight_eq_div_pow]
    omega)
  have patternField : (w.extractLsb' 5 3).toFin = pattern := Fin.ext (by
    change (w.extractLsb' 5 3).toNat = pattern.val
    rw [BitVec.extractLsb'_toNat, value, Nat.shiftRight_eq_div_pow]
    omega)
  have broadcastBit : w.getLsbD 8 = broadcast := by
    rw [bit_eq, value]
    cases broadcast with
    | true => exact decide_eq_true (by simp only [Bool.toNat_true]; omega)
    | false => exact decide_eq_false (by simp only [Bool.toNat_false]; omega)
  simp only [setContact, wordIndex_word k (by decide), classField, coded, if_neg reserved, groupField, patternField,
    broadcastBit]

theorem setGroup_words (s : State) (g : Fin 8) {zones : ZoneSet} {zlo zhi : Word16} (words : zoneWords zones zlo zhi)
    (some : zones ≠ 0) : setGroup [word g.val, zlo, zhi] s = .ok (s.setGroupOf g zones) := by
  simp only [setGroup, wordIndex_word g (by decide), zoneSetOf_words _ _ _ words, if_neg some]

theorem groupSounding_iff (a : Alarm) (g : Fin 8) :
    (indices 8).any (fun e => (a.records[e]).any (fun r => r.sounding && r.group == g)) = true ↔
      ∃ (e : Fin 8) (r : AlarmRec), a.records[e] = some r ∧ r.sounding = true ∧ r.group = g := by
  simp only [List.any_eq_true, mem_indices, true_and, Option.any_eq_true, Bool.and_eq_true, beq_iff_eq]

end Sys2Proof.Machine

open Sys2Proof Sys2Proof.Machine

/-- Settles O51: a pattern by its loaded steps, each request by its fields. -/
theorem alarmTablesAreWritten : Obligations.AlarmTablesAreWritten := by
  refine ⟨fun x p => ?_, fun s a low => ⟨fun pattern i last mode m duration n1 n2 hi lo code range asked => ?_,
    fun k cls group pattern broadcast asked => ?_, fun g zones zlo zhi words nonempty asked => ?_⟩⟩
  · intro loaded
    refine ⟨fun none => ?_, fun q pattern some => ?_⟩
    · have unloaded : x.loaded p = false := Bool.eq_false_iff.mpr fun h => by
        obtain ⟨q, i, pattern, step⟩ := (loaded_iff x p).mp h
        exact step (none q i pattern)
      exact ⟨length_unloaded unloaded, stepAt_unloaded unloaded⟩
    · have isLoaded : x.loaded p = true := by
        obtain ⟨i, step⟩ := some
        exact (loaded_iff x p).mpr ⟨q, i, pattern, step⟩
      have at_ (i : Fin 16) : (x.steps p)[i] = loaded q i := by
        rw [steps_succ x pattern]
      have noLast {i : Fin 16} (h : ∀ y, loaded q i = Option.some y → y.last = false) :
          ((x.steps p)[i]).any (·.last) = false := by
        rw [at_]
        cases step : loaded q i with
        | none => rfl
        | some y => exact h y step
      refine ⟨fun i => ⟨fun y step => ?_, fun none => ?_⟩, fun i y step last below => ?_, fun none => ?_⟩
      · rw [stepAt_loaded isLoaded, at_, step]
        rfl
      · rw [stepAt_loaded isLoaded, at_, none]
        exact ⟨rfl, rfl⟩
      · refine length_last isLoaded ?_ fun j less => noLast fun z step => below j z less step
        rw [at_, step]
        exact last
      · exact length_noLast isLoaded fun i => noLast fun y step => none i y step
  · have coded : stepMode m = some mode ∧ m < 3 := by
      rcases code with ⟨rfl, rfl⟩ | ⟨rfl, rfl⟩ | ⟨rfl, rfl⟩ <;> decide
    intro used
    have inUse : s.alarm.patternInUse pattern.succ = true ↔ used := patternInUse_iff s.alarm pattern
    rw [exec_asked (i := .setPatternStep a low) (owner := setPatternStep) rfl rfl asked,
      setPatternStep_words s pattern i last coded.1 coded.2 range]
    refine ⟨fun h => ?_, fun h => ?_⟩
    · rw [if_pos (inUse.mpr h), consume_refuse]
    · rw [if_neg (mt inUse.mp h), consume_ok]
      rfl
  · rw [exec_asked (i := .setContact a low) (owner := setContact) rfl rfl asked, setContact_words, consume_ok]
    rfl
  · intro sounding t
    have named : _ ↔ sounding := groupSounding_iff s.alarm g
    rw [exec_asked (i := .setGroup a low) (owner := setGroup) rfl rfl asked, setGroup_words s g words nonempty, consume_ok]
    refine ⟨fun h => ?_, fun h => ?_⟩
    · exact congrArg (fun t : State => Host.Outcome.next (t.answered 0x4A .ok [])) (if_neg (mt named.mp h))
    · exact congrArg (fun t : State => Host.Outcome.next (t.answered 0x4A .ok [])) (if_pos (named.mpr h))

end

section
/-! The requests of the line supervisor and of the ambient tracker, the end of a step of the scan, and the end of a
block. -/

namespace Sys2Proof.Machine

/-! ### The line supervisor -/

theorem setWindow_words (s : State) (c : Fin 32) (enabled : Bool) {lo hi : Nat} (order : lo ≤ hi) (range : hi ≤ 4095) :
    setWindow [word c.val, word enabled.toNat, word lo, word hi] s =
      .ok (s.setWindowOf c { enabled := enabled, low := lo, high := hi }) := by
  have low : (word lo).toNat = lo := word_toNat_of_lt _ (by omega)
  have high : (word hi).toNat = hi := word_toNat_of_lt _ (by omega)
  have inside : ¬ (4095 < lo ∨ 4095 < hi ∨ hi < lo) := by omega
  simp only [setWindow, wordIndex_word c (by decide), flagWord_word, low, high, if_neg inside]

theorem named_beq (l : Lines) (c : Fin 32) : (l.named == some c) = decide (l.scanner = .stepping c) := by
  unfold Lines.named
  split
  · next d scanner =>
    rw [scanner]
    by_cases own : d = c <;> simp [own]
  · next other => exact (decide_eq_false (other c)).symm

theorem postLine_restored (s : State) (c : Fin 32) : s.postLine c (some .restored) = s.withEvent .lineRestored c.val 0 :=
  post_eq _ _ _ 0

theorem postLine_faulted (s : State) (c : Fin 32) (k : FaultKind) :
    s.postLine c (some (.faulted k)) = s.withEvent .lineFault c.val k.code := post_eq _ _ _ k.code

section Scan

variable {s : State} (t : Fin 32) {b : Nat} (rest : Word16) (range : b ≤ 255)

include range

theorem setScan_stepping {c : Fin 32} (step : s.lines.scanner = .stepping c) :
    setScan [word t.val, word b, rest] s = .ok (s.setLines { s.lines with
      pendingSet := some { top := t, burst := b, rest := min 600 rest.toNat } }) := by
  have value : (word b).toNat = b := word_toNat_of_lt _ (by omega)
  have inside : ¬ 255 < b := by omega
  simp only [setScan, wordIndex_word t (by decide), value, if_neg inside]
  split
  · rfl
  · next still => exact absurd step (still c)

theorem setScan_still (still : ∀ c, s.lines.scanner ≠ .stepping c) :
    setScan [word t.val, word b, rest] s =
      .ok (s.setLines (s.lines.apply { top := t, burst := b, rest := min 600 rest.toNat })) := by
  have value : (word b).toNat = b := word_toNat_of_lt _ (by omega)
  have inside : ¬ 255 < b := by omega
  simp only [setScan, wordIndex_word t (by decide), value, if_neg inside]

end Scan

theorem reading_stepping {l : Lines} {c : Fin 32} (step : l.scanner = .stepping c) (rs : Vector LineReading 32) :
    l.reading rs = { l with held := if (rs[c]).valid then some (rs[c]).value.toNat else l.held } := by
  unfold Lines.reading
  split
  · next d scanner =>
    obtain rfl : d = c := ScanState.stepping.inj (scanner.symm.trans step)
    split
    · rfl
    · rfl
  · next other => exact absurd step (other c)

/-- The fault record in a byte of READ LINES. -/
def FaultRec.byte : FaultRec → Nat
  | .ok => 0
  | .suspect k => 1 + 4 * k.code
  | .fault k r => 2 + 4 * k.code + 16 * r

theorem lineByte_eq (s : State) (c : Fin 32) : s.lineByte c =
    (s.lines.faults[c]).byte + (if (s.lines.windows[c]).enabled then 64 else 0) +
      (if s.ports.frameOut.measure.getLsbD c.val then 128 else 0) := by
  unfold State.lineByte
  cases s.lines.faults[c] <;> rfl

/-- The byte of READ LINES is a byte while an OK run counts at most 2. -/
theorem lineByte_lt {s : State} (runs : ∀ (c : Fin 32) (k : FaultKind) (r : Nat), s.lines.faults[c] = .fault k r → r ≤ 2)
    (c : Fin 32) : s.lineByte c < 256 := by
  have code (k : FaultKind) : k.code ≤ 3 := by cases k <;> decide
  have record : (s.lines.faults[c]).byte ≤ 46 := by
    cases fault : s.lines.faults[c] with
    | ok => exact Nat.zero_le _
    | suspect k =>
      have := code k
      simp only [FaultRec.byte]
      omega
    | fault k r =>
      have := code k
      have := runs c k r fault
      simp only [FaultRec.byte]
      omega
  rw [lineByte_eq]
  split <;> split <;> omega

/-- The word of READ LINES for two channels. -/
def State.lineWord (s : State) (w : Fin 16) : Word16 :=
  BitVec.ofNat 16 (s.lineByte ⟨2 * w.val, by omega⟩ + 256 * s.lineByte ⟨2 * w.val + 1, by omega⟩)

theorem lineWord_byte {s : State} (runs : ∀ (c : Fin 32) (k : FaultKind) (r : Nat), s.lines.faults[c] = .fault k r → r ≤ 2)
    (c : Fin 32) : ∃ w, ((indices 16).map s.lineWord)[c.val / 2]? = some w ∧
      w.toNat / (if c.val % 2 = 0 then 1 else 256) % 256 = s.lineByte c := by
  obtain ⟨n, half⟩ : ∃ n : Fin 16, n.val = c.val / 2 := ⟨⟨c.val / 2, by omega⟩, rfl⟩
  have even := lineByte_lt runs ⟨2 * n.val, by omega⟩
  have odd := lineByte_lt runs ⟨2 * n.val + 1, by omega⟩
  have value : (s.lineWord n).toNat = s.lineByte ⟨2 * n.val, by omega⟩ + 256 * s.lineByte ⟨2 * n.val + 1, by omega⟩ :=
    word_toNat_of_lt _ (by omega)
  refine ⟨s.lineWord n, ?_, ?_⟩
  · rw [← half, List.getElem?_map, indices, List.getElem?_ofFn, dif_pos n.isLt]
    rfl
  · by_cases parity : c.val % 2 = 0
    · have own : s.lineByte c = s.lineByte ⟨2 * n.val, by omega⟩ :=
        congrArg s.lineByte (Fin.ext (by change c.val = 2 * n.val; omega))
      rw [if_pos parity, own, value]
      omega
    · have own : s.lineByte c = s.lineByte ⟨2 * n.val + 1, by omega⟩ :=
        congrArg s.lineByte (Fin.ext (by change c.val = 2 * n.val + 1; omega))
      rw [if_neg parity, own, value]
      omega

/-! ### The end of a step -/

/-- The scanner after a step, by its settings (R173). -/
theorem continue_eq (l : Lines) : l.continue = match l.pendingSet with
    | some p => { l with
        settings := p, pendingSet := none, burstCount := 0, position := p.top
        scanner := if p.burst = 0 then .stopped else .choosing }
    | none => { l with
        burstCount := if l.burstCount + 1 < l.settings.burst then l.burstCount + 1 else 0
        restTimer := if ¬ l.burstCount + 1 < l.settings.burst ∧ 0 < l.settings.rest then 0 else l.restTimer
        scanner := if ¬ l.burstCount + 1 < l.settings.burst ∧ 0 < l.settings.rest then .resting else .choosing } := by
  unfold Lines.continue
  cases l.pendingSet with
  | some p => rfl
  | none =>
    by_cases more : l.burstCount + 1 < l.settings.burst
    · simp only [more, if_true, not_true, false_and, if_false]
    · by_cases rest : 0 < l.settings.rest
      · simp only [more, rest, if_true, if_false, not_false_iff, true_and]
      · simp only [more, rest, if_false, and_false]

theorem continue_faults (l : Lines) (faults : Vector FaultRec 32) :
    { l with faults := faults }.continue = { l.continue with faults := faults } := by
  rw [continue_eq, continue_eq]
  cases l.pendingSet <;> rfl

theorem postLine_setLines (s : State) (c : Fin 32) (e : Option LineEvent) (x : Lines) :
    (s.postLine c e).setLines x = (s.setLines x).postLine c e := by
  unfold State.postLine
  split <;> rfl

theorem postLine_lines (s : State) (c : Fin 32) (e : Option LineEvent) : (s.postLine c e).lines = s.lines := by
  unfold State.postLine
  split <;> rfl

theorem scanStepEnd_eq {s : State} {c : Fin 32} (step : s.lines.scanner = .stepping c) (timer : s.lines.stepTimer = 4800) :
    scanStepEnd s = if s.lines.discard then s.setLines s.lines.continue
      else
        let change := (s.lines.faults[c]).after (classify s.lines.windows[c] s.lines.held)
        (s.setLines { s.lines.continue with faults := put s.lines.faults c change.1 }).postLine c change.2 := by
  have over_ : 4800 ≤ s.lines.stepTimer := ge_of_eq timer
  simp only [scanStepEnd, step]
  rw [if_pos over_, State.classifyStep]
  split
  · rfl
  · rw [postLine_setLines, postLine_lines, State.setLines_lines, continue_faults]
    rfl

/-! ### The tracker -/

theorem senseInput_isSome_iff (s : State) (z : Fin 24) (position : Fin 2) :
    (s.senseInput z position).isSome = true ↔ ∃ i : Fin 32, (s.ports.inputs[i]).role = .sense z position := by
  simp only [State.senseInput, List.find?_isSome, mem_indices, true_and, beq_iff_eq]

/-- The counts of a histogram up to a bin reach the threshold of a percentile (R183). -/
def reaches (h : Vector Nat 16) (percentile n : Nat) : Prop :=
  (480 * percentile + 99) / 100 ≤ (h.toList.take (n + 1)).sum

theorem noiseBin_eq {h : Vector Nat 16} {percentile n : Nat} (range : n ≤ 15) (here : reaches h percentile n)
    (lowest : ∀ m < n, ¬ reaches h percentile m) : noiseBin h percentile = n := by
  have found : (List.range 16).find? (fun b => decide ((480 * percentile + 99) / 100 ≤ (h.toList.take (b + 1)).sum)) =
      some n := by
    rw [List.find?_range_eq_some]
    refine ⟨decide_eq_true here, List.mem_range.mpr (by omega), fun m less => ?_⟩
    rw [Bool.not_eq_true', decide_eq_false_iff_not]
    exact lowest m less
  simp only [noiseBin, found, Option.getD_some]

theorem setTracker_words (s : State) (z : Fin 24) {p q : Nat} (slope kmin kmax rise fall seed : Word16) (low : 1 ≤ p)
    (high : p ≤ 99) (quiet : q ≤ 15) :
    setTracker [word z.val, word p, word q, slope, kmin, kmax, rise, fall, seed] s =
      .ok (s.setTrackers (put s.trackers z ((s.trackers[z]).configure (trackerSettings p q slope.toNat kmin.toNat
        kmax.toNat rise.toNat fall.toNat seed.toNat)))) := by
  have value : (word p).toNat = p := word_toNat_of_lt _ (by omega)
  have value' : (word q).toNat = q := word_toNat_of_lt _ (by omega)
  have inside : ¬ (p = 0 ∨ 99 < p ∨ 15 < q) := by omega
  simp only [setTracker, wordIndex_word z (by decide), value, value', if_neg inside]

theorem resetTracker_word (s : State) (z : Fin 24) : resetTracker [word z.val] s =
    .ok (s.setTrackers (put s.trackers z (s.trackers[z]).reset)) := by
  simp only [resetTracker, wordIndex_word z (by decide)]

theorem readTracker_word (s : State) (z : Fin 24) : readTracker [word z.val] s =
    .report s (trackerWords s.trackers[z] (s.senseCount z)) := by
  simp only [readTracker, wordIndex_word z (by decide)]

end Sys2Proof.Machine

open Sys2Proof Sys2Proof.Machine

/-- Settles O55. -/
theorem lineSupervisionFollowsTheScan : Obligations.LineSupervisionFollowsTheScan := by
  intro s a low l isFault
  refine ⟨fun c enabled lo hi order range asked => ?_, fun t b rest range asked => ?_, fun asked runs => ?_,
    fun rs c step => ?_, fun resting timer => ?_, fun c step timer => ?_⟩
  · intro w off
    rw [exec_asked (i := .setWindow a low) (owner := setWindow) rfl rfl asked, setWindow_words s c enabled order range,
      consume_ok]
    have posted (t : State) : t.setWindowOf c { enabled := false, low := lo, high := hi } =
        (t.setLines { t.lines with
          windows := put t.lines.windows c { enabled := false, low := lo, high := hi }
          faults := put t.lines.faults c .ok
          discard := t.lines.discard || decide (t.lines.scanner = .stepping c) }).postLine c
            (t.lines.faults[c]).release := by
      rw [← named_beq]
      rfl
    refine ⟨fun yes => ?_, fun no quiet => ?_, fun no fault => ?_⟩
    · simp only [w, yes]
      rfl
    · have kept : (s.lines.faults[c]).release = none := by
        unfold FaultRec.release
        split
        · next k r fault => exact absurd ⟨k, r, fault⟩ quiet
        · rfl
      simp only [w, off, no, posted, kept]
      rfl
    · obtain ⟨k, r, fault⟩ := fault
      have fault : s.lines.faults[c] = .fault k r := fault
      have released : (s.lines.faults[c]).release = some .restored := by rw [fault]; rfl
      simp only [w, off, no, posted, released, postLine_restored]
      rfl
  · rw [exec_asked (i := .setScan a low) (owner := setScan) rfl rfl asked]
    refine ⟨fun ⟨c, step⟩ => ?_, fun still => ?_⟩
    · rw [setScan_stepping t rest range step, consume_ok]
      rfl
    · rw [setScan_still t rest range still, consume_ok]
      rfl
  · rw [exec_asked (i := .readLines a low) (owner := readLines) rfl rfl asked]
    refine ⟨(indices 16).map s.lineWord, rfl, fun c => ?_⟩
    obtain ⟨w, word_, byte⟩ := lineWord_byte runs c
    refine ⟨w, word_, byte.trans ?_⟩
    rw [lineByte_eq]
    refine congrArg (· + _ + _) ?_
    change (s.lines.faults[c]).byte = (match s.lines.faults[c] with
      | .ok => 0
      | .suspect .short => 1 + 4
      | .suspect .opened => 1 + 8
      | .suspect .noReply => 1 + 12
      | .fault .short r => 2 + 4 + 16 * r
      | .fault .opened r => 2 + 8 + 16 * r
      | .fault .noReply r => 2 + 12 + 16 * r)
    cases s.lines.faults[c] with
    | ok => rfl
    | suspect k => cases k <;> rfl
    | fault k r => cases k <;> rfl
  · change Host.Outcome.next (s.setLines (s.lines.reading rs)) = _
    rw [reading_stepping (l := s.lines) step]
    rfl
  · change Host.Outcome.next (scanRestEnd s) = _
    have resting : s.lines.scanner = .resting := resting
    simp only [scanRestEnd, resting]
    exact congrArg _ (if_pos (ge_of_eq timer))
  · intro more after changed w result
    have afterStep : s.lines.continue = after := continue_eq s.lines
    have classified : classify s.lines.windows[c] s.lines.held = result := rfl
    have changes (f : FaultRec) : s.setLines { s.lines.continue with faults := put s.lines.faults c f } = changed f := by
      rw [afterStep]
      rfl
    have exec_eq : exec .scanStepEnd s = .next (scanStepEnd s) := rfl
    rw [exec_eq, scanStepEnd_eq step timer, afterStep]
    refine ⟨fun discard => congrArg _ (if_pos discard), fun kept => ?_⟩
    have keep : ¬ s.lines.discard = true := by
      rw [show s.lines.discard = false from kept]
      decide
    rw [if_neg keep, classified, ← afterStep]
    simp only [changes]
    refine ⟨fun k f r => ?_, fun f r => ?_, fun k f r => ?_, fun k k' f r other => ?_, fun k f r => ?_, fun k n f r => ?_,
      fun k n k' f r other => ?_, fun k n f r few => ?_, fun k f r => ?_⟩
    · rw [show s.lines.faults[c] = .ok from f, r]
      rfl
    · rw [show s.lines.faults[c] = .ok from f, r]
      rfl
    · rw [show s.lines.faults[c] = .suspect k from f, r]
      rfl
    · rw [show s.lines.faults[c] = .suspect k from f, r, FaultRec.after, if_neg other]
      rfl
    · rw [show s.lines.faults[c] = .suspect k from f, r, FaultRec.after, if_pos rfl, postLine_faulted]
      cases k <;> rfl
    · rw [show s.lines.faults[c] = .fault k n from f, r, FaultRec.after, if_pos rfl]
      rfl
    · rw [show s.lines.faults[c] = .fault k n from f, r, FaultRec.after, if_neg other, postLine_faulted]
      cases k' <;> rfl
    · rw [show s.lines.faults[c] = .fault k n from f, r, FaultRec.after, if_pos (Nat.lt_succ_of_le few)]
      rfl
    · rw [show s.lines.faults[c] = .fault k 2 from f, r, FaultRec.after, if_neg (lt_irrefl 2), postLine_restored]

/-- Settles O56. -/
theorem trackerRequestsAndBlocks : Obligations.TrackerRequestsAndBlocks := by
  intro s a low z x has reached lowest with_
  refine ⟨fun p q slope kmin kmax rise fall seed one fits quiet asked => ?_, fun asked => ⟨?_, ?_⟩, fun done => ?_⟩
  · intro top bottom
    rw [exec_asked (i := .setTracker a low) (owner := setTracker) rfl rfl asked,
      setTracker_words s z slope kmin kmax rise fall seed one fits quiet, consume_ok]
    have settings : trackerSettings p q slope.toNat kmin.toNat kmax.toNat rise.toNat fall.toNat seed.toNat =
        { percentile := p, quiet := q, slope := min 4 (max 1 slope.toNat), kmin := bottom, kmax := top
          rise := min 255 (max 1 rise.toNat), fall := min 255 (max 1 fall.toNat)
          seed := min top (max bottom seed.toNat) } := by
      have low : min (min 8 kmax.toNat) (min 8 kmin.toNat) = min kmin.toNat (min 8 kmax.toNat) := by omega
      simp only [trackerSettings, low, clampTo]
      rfl
    rw [settings]
    rfl
  · rw [exec_asked (i := .resetTracker a low) (owner := resetTracker) rfl rfl asked, resetTracker_word, consume_ok]
    rfl
  · rw [exec_asked (i := .readTracker a low) (owner := readTracker) rfl rfl asked, readTracker_word, consume_report,
      State.senseCount, trackerWords]
    simp only [senseInput_isSome_iff]
    cases last : x.last with
    | none =>
      rfl
    | some e =>
      rfl
  · have exec_eq : exec (.trackerBlockEnd z) s = .next (trackerBlockEnd z s) := rfl
    have ended : trackerBlockEnd z s = s.setTrackers (put s.trackers z
        (x.blockEnd (s.senseInput z 0).isSome (s.senseInput z 1).isSome)) := if_pos done
    have ends (y : ZoneTracker) (next : x.blockEnd (s.senseInput z 0).isSome (s.senseInput z 1).isSome = y.restart) :
        exec (.trackerBlockEnd z) s = .next (with_ y) := by
      rw [exec_eq, ended, next]
      rfl
    have some0 : (s.senseInput z 0).isSome = true ↔ has 0 := senseInput_isSome_iff s z 0
    have some1 : (s.senseInput z 1).isSome = true ↔ has 1 := senseInput_isSome_iff s z 1
    refine ⟨fun frozen => ends _ ?_, fun thawed tail => ends _ ?_, fun thawed none => ?_⟩
    · simp only [ZoneTracker.blockEnd, frozen, if_true]
    · simp only [ZoneTracker.blockEnd, thawed, Bool.false_eq_true, if_false, if_pos tail]
    · have tail : ¬ 0 < x.freezeTail := by omega
      have evaluated (y : ZoneTracker) (settled : { x.settle (x.evaluate (s.senseInput z 0).isSome
          (s.senseInput z 1).isSome).kdes with last := some (x.evaluate (s.senseInput z 0).isSome
          (s.senseInput z 1).isSome) } = y) : exec (.trackerBlockEnd z) s = .next (with_ y) := by
        refine ends _ ?_
        simp only [ZoneTracker.blockEnd, thawed, Bool.false_eq_true, if_false, if_neg tail, settled]
      have bin0 (n : Nat) (h : lowest x.hist0 n) : noiseBin x.hist0 x.settings.percentile = n := noiseBin_eq h.1 h.2.1 h.2.2
      have bin1 (n : Nat) (h : lowest x.hist1 n) : noiseBin x.hist1 x.settings.percentile = n := noiseBin_eq h.1 h.2.1 h.2.2
      refine ⟨x.evaluate (s.senseInput z 0).isSome (s.senseInput z 1).isSome, rfl, fun h0 => ⟨fun n h => ?_, fun no1 => ?_⟩,
        fun h1 n h => ⟨fun h0 => ?_, fun no0 => ?_⟩, fun h0 h1 => ?_, fun same => ?_, fun below => ?_, fun above => ?_⟩
      · rw [some0.mpr h0]
        exact bin0 n h
      · rw [some0.mpr h0, Bool.eq_false_iff.mpr (mt some1.mp no1)]
        rfl
      · rw [some0.mpr h0, some1.mpr h1]
        exact bin1 n h
      · rw [Bool.eq_false_iff.mpr (mt some0.mp no0), some1.mpr h1]
        exact bin1 n h
      · rw [some0.mpr h0, some1.mpr h1]
        rfl
      · refine evaluated _ ?_
        rw [ZoneTracker.settle, if_neg (by omega), if_neg (by omega)]
      · refine evaluated _ ?_
        rw [ZoneTracker.settle, if_pos below]
        split <;> rfl
      · refine evaluated _ ?_
        rw [ZoneTracker.settle, if_neg (by omega), if_pos above]
        split <;> rfl

end

section
/-! Alarm records: what their start, their end and their silencing leave, the shared entries, and the tables, timers and
contact lines that start and end them. -/

namespace Sys2Proof.Machine

/-! ### The start and the end of a record -/

/-- The state before and after, but for its records, their events and the hand-off of coverage. -/
structure RecordMoved (a : Alarm) (s t : State) : Prop where
  alarm : SameRecords a t.alarm
  mix : t.mix = s.mix
  memory : t.clips.memory = s.clips.memory
  address : t.ring.address = s.ring.address
  forward : t.ring.forward = s.ring.forward
  number : t.ring.cycleNumber = s.ring.cycleNumber

/-- The send list after a record's start or end. -/
def AlarmRec.placed (r : AlarmRec) (e : Fin 8) (on : Bool) (l : List SendWord) : List SendWord :=
  if r.broadcast then SendWord.placedIn
    { entry := e, on := on, group := r.group, cls := r.cls, pattern := r.pattern, fresh := true } l
  else l

theorem sending_eq (s : State) (e : Fin 8) (r : AlarmRec) (on : Bool) :
    s.sending e r on = { s with ring := { s.ring with sendList := r.placed e on s.ring.sendList } } := by
  unfold State.sending AlarmRec.placed
  split <;> rfl

theorem recordStarted_coverageOnly (s : State) (e : Fin 8) (r : AlarmRec) :
    CoverageOnly ((State.withEvent { s with alarm := s.alarm.started e r } .alarmBegun e.val r.cls.rank).sending e r true)
      (s.recordStarted e r) :=
  recoverage_coverageOnly _ _

theorem recordStarted_moved (s : State) (e : Fin 8) (r : AlarmRec) :
    RecordMoved (s.alarm.started e r) s (s.recordStarted e r) := by
  have h := recordStarted_coverageOnly s e r
  rw [sending_eq] at h
  exact ⟨h.alarm, h.mix, h.memory, h.address, h.forward, h.cycleNumber⟩

theorem recordStarted_sendList (s : State) (e : Fin 8) (r : AlarmRec) :
    (s.recordStarted e r).ring.sendList = r.placed e true s.ring.sendList := by
  have h := (recordStarted_coverageOnly s e r).sendList
  rw [sending_eq] at h
  exact h

theorem recordStarted_events (s : State) (e : Fin 8) (r : AlarmRec) :
    (s.withEvent .alarmBegun e.val r.cls.rank).ctl.events <+: (s.recordStarted e r).ctl.events := by
  have h := (recordStarted_coverageOnly s e r).events
  rw [sending_eq] at h
  exact h

theorem CoverageOnly.refl (s : State) : CoverageOnly s s := setAlarm_coverageOnly s s.alarm (SameRecords.refl _)

theorem recordEnded_coverageOnly (s : State) (e : Fin 8) (r : AlarmRec) (cause : Nat) :
    CoverageOnly ((State.withEvent { s with alarm := s.alarm.ended e } .alarmEnded e.val cause).sending e r false)
      (s.recordEnded e r cause) := by
  unfold State.recordEnded
  split
  · exact recoverage_coverageOnly _ _
  · exact .refl _

theorem recordEnded_moved (s : State) (e : Fin 8) (r : AlarmRec) (cause : Nat) :
    RecordMoved (s.alarm.ended e) s (s.recordEnded e r cause) := by
  have h := recordEnded_coverageOnly s e r cause
  rw [sending_eq] at h
  exact ⟨h.alarm, h.mix, h.memory, h.address, h.forward, h.cycleNumber⟩

theorem recordEnded_sendList (s : State) (e : Fin 8) (r : AlarmRec) (cause : Nat) :
    (s.recordEnded e r cause).ring.sendList = r.placed e false s.ring.sendList := by
  have h := (recordEnded_coverageOnly s e r cause).sendList
  rw [sending_eq] at h
  exact h

theorem recordEnded_events (s : State) (e : Fin 8) (r : AlarmRec) (cause : Nat) :
    (s.withEvent .alarmEnded e.val cause).ctl.events <+: (s.recordEnded e r cause).ctl.events := by
  have h := (recordEnded_coverageOnly s e r cause).events
  rw [sending_eq] at h
  exact h

/-! ### The entries -/

theorem requestEntry_none_iff (a : Alarm) (id : BitVec 8) : a.requestEntry id = none ↔
    ∀ (e : Fin 8) (r : AlarmRec), a.records[e] = some r → r.origin ≠ .request id := by
  unfold Alarm.requestEntry
  simp only [List.find?_eq_none, mem_indices, forall_const, Option.any_eq_true, beq_iff_eq, not_exists, not_and]

theorem requestEntry_some {a : Alarm} {id : BitVec 8} {e : Fin 8} {r : AlarmRec} (found : a.records[e] = some r)
    (own : r.origin = .request id)
    (lowest : ∀ f : Fin 8, f < e → ∀ x, a.records[f] = some x → x.origin ≠ .request id) : a.requestEntry id = some e := by
  refine (find_indices_iff _ e).mpr ⟨by simp only [found, Option.any_some, own, beq_self_eq_true], fun f less => ?_⟩
  cases other : a.records[f] with
  | none => rfl
  | some x => exact beq_eq_false_iff_ne.mpr (lowest f less x other)

theorem mem_sharedEntries (e : Fin 8) : e ∈ sharedEntries ↔ 4 ≤ e.val := by
  revert e
  decide

theorem freeShared_none_iff (a : Alarm) :
    a.freeShared = none ↔ ∀ e : Fin 8, 4 ≤ e.val → a.records[e] ≠ none := by
  unfold Alarm.freeShared
  simp only [List.find?_eq_none, mem_sharedEntries, Option.isNone_iff_eq_none, ne_eq]

theorem sharedEntries_ascend : sharedEntries.Pairwise (· < ·) := by decide

theorem freeShared_some {a : Alarm} {e : Fin 8} (shared : 4 ≤ e.val) (free : a.records[e] = none)
    (lowest : ∀ f : Fin 8, 4 ≤ f.val → f < e → a.records[f] ≠ none) : a.freeShared = some e := by
  obtain ⟨before, after, split⟩ := List.append_of_mem ((mem_sharedEntries e).mpr shared)
  have ascend := sharedEntries_ascend
  rw [split, List.pairwise_append] at ascend
  obtain ⟨-, -, below⟩ := ascend
  refine List.find?_eq_some_iff_append.mpr ⟨by rw [free]; rfl, before, after, split, fun f mem => ?_⟩
  have inside : f ∈ sharedEntries := split ▸ List.mem_append_left _ mem
  have taken := lowest f ((mem_sharedEntries f).mp inside) (below f mem e List.mem_cons_self)
  rw [Bool.not_eq_true', ← Bool.not_eq_true, Option.isNone_iff_eq_none]
  exact taken

theorem voiceFactor_eq (voice : Option (Fin 64)) (factor : Word16) : voiceFactor voice factor =
    if voice = none ∨ factor = 65535 then 4096 else min 16384 factor.toNat := by
  have full : factor.toNat = 65535 ↔ factor = 65535 :=
    ⟨fun h => BitVec.eq_of_toNat_eq h, fun h => h ▸ rfl⟩
  unfold voiceFactor
  cases voice with
  | none => rfl
  | some v => simp only [Option.isNone_some, Bool.false_eq_true, if_false, full, reduceCtorEq, false_or]

/-! ### The requests -/

theorem alarmStart_words (s : State) {id : BitVec 8} (nonzero : id ≠ 0) (cls : AlarmClass) (group pattern : Fin 8)
    (voice : Option (Fin 64)) (broadcast : Bool) (factor : Word16) :
    alarmStart [word id.toNat, word cls.rank, word group.val, word pattern.val, optionWord voice, word broadcast.toNat,
      factor] s =
      if (s.alarm.requestEntry id).isSome then .refuse .duplicate s
      else
        match s.alarm.freeShared with
        | none => .refuse .full s
        | some e =>
          .ok (s.startRecord e (newRecord (.request id) cls group pattern voice (voiceFactor voice factor) broadcast)) := by
  obtain ⟨coded, small⟩ := alarmClass_rank cls
  have value : (word cls.rank).toNat = cls.rank := word_toNat_of_lt _ (by omega)
  simp only [alarmStart, byteId_word id nonzero, value, coded, wordIndex_word group (by decide),
    wordIndex_word pattern (by decide), optionalIndex_word voice (by decide), flagWord_word] <;> rfl

theorem alarmStop_words (s : State) {id : BitVec 8} (nonzero : id ≠ 0) : alarmStop [word id.toNat] s =
    match s.alarm.requestEntry id with
    | none => .refuse .notFound s
    | some e => .ok (s.endRecord e alarmStopped) := by
  simp only [alarmStop, byteId_word id nonzero] <;> rfl

theorem silenceAlarm_words (s : State) (e : Fin 8) : silenceAlarm [word e.val] s =
    match s.alarm.records[e] with
    | none => .refuse .notFound s
    | some r =>
      if r.cls = .general then .refuse .notAllowed s
      else if r.sounding = false then .ok s
      else .ok (s.silence e r) := by
  simp only [silenceAlarm, wordIndex_word e (by decide)] <;> rfl

/-- An entry whose record is SILENCED wins no zone. -/
theorem silence_coverage (s : State) (e : Fin 8) (r : AlarmRec) (z : Fin 24) :
    (s.silence e r).alarm.coverage[z] ≠ some e := by
  intro wins
  unfold State.silence at wins
  rw [recoverage_coverage] at wins
  have covers := winnerOf_covers _ _ _ wins
  simp [Alarm.covers] at covers

end Sys2Proof.Machine

open Sys2Proof Sys2Proof.Machine

/-- Settles O52: by the four questions of each check table; a start and an end are those of the statement, and the
silenced record covers no zone. -/
theorem alarmRequestsFollowTheirTables : Obligations.AlarmRequestsFollowTheirTables := by
  intro s a low
  refine ⟨fun id cls group pattern voice broadcast factor nonzero asked => ?_, fun id nonzero asked => ?_,
    fun e asked => ?_⟩
  · intro present record
    have run := exec_asked (i := .alarmStart a low) (owner := alarmStart) rfl rfl asked
    rw [alarmStart_words s nonzero] at run
    have absent (h : ¬ present) : s.alarm.requestEntry id = none :=
      (requestEntry_none_iff s.alarm id).mpr fun e r found own => h ⟨e, r, found, own⟩
    refine ⟨fun h => ?_, fun h full => ?_, fun e h shared free lowest => ?_⟩
    · obtain ⟨e, r, found, own⟩ := h
      have some_entry : (s.alarm.requestEntry id).isSome = true := by
        rw [Option.isSome_iff_ne_none]
        exact fun free => (requestEntry_none_iff s.alarm id).mp free e r found own
      rw [run, if_pos some_entry]
      rfl
    · rw [run, absent h, (freeShared_none_iff s.alarm).mpr full]
      rfl
    · rw [absent h, freeShared_some shared free lowest] at run
      have same : newRecord (.request id) cls group pattern voice (voiceFactor voice factor) broadcast = record := by
        rw [voiceFactor_eq]
        rfl
      have moved := recordStarted_moved s e record
      have list := recordStarted_sendList s e record
      refine ⟨s.recordStarted e record, ?_, rfl, moved.alarm.records, moved.alarm.startOrder,
        fun _ => recordStarted_events s e record, fun quiet => ?_, fun loud => ?_, moved.address, moved.forward,
        moved.alarm.contacts, moved.alarm.groups, moved.alarm.patterns, moved.mix, moved.memory⟩
      · rw [run]
        simp only [Option.isSome_none, Bool.false_eq_true, if_false, same, startRecord_eq]
        rfl
      · exact list.trans (if_neg (Bool.eq_false_iff.mp quiet))
      · exact list.trans (if_pos loud)
  · have run := exec_asked (i := .alarmStop a low) (owner := alarmStop) rfl rfl asked
    rw [alarmStop_words s nonzero] at run
    refine ⟨fun absent => ?_, fun e r found own lowest => ?_⟩
    · rw [run, (requestEntry_none_iff s.alarm id).mpr absent]
      rfl
    · rw [requestEntry_some found own lowest] at run
      have moved := recordEnded_moved s e r 2
      have list := recordEnded_sendList s e r 2
      refine ⟨s.recordEnded e r 2, ?_, rfl, moved.alarm.records, moved.alarm.startOrder,
        fun _ => recordEnded_events s e r 2, fun loud => list.trans (if_pos loud),
        fun quiet => list.trans (if_neg (Bool.eq_false_iff.mp quiet)), moved.alarm.contacts, moved.mix, moved.memory⟩
      rw [run]
      have ended : s.endRecord e alarmStopped = s.recordEnded e r 2 := endRecord_eq s e r found 2
      simp only [ended]
      rfl
  · have run := exec_asked (i := .silenceAlarm a low) (owner := silenceAlarm) rfl rfl asked
    rw [silenceAlarm_words] at run
    refine ⟨fun none => ?_, fun r found => ⟨fun general => ?_, fun other silent => ?_, fun other sounding => ?_⟩⟩
    · rw [run, none]
      rfl
    · rw [run, found]
      simp only [if_pos general]
      rfl
    · rw [run, found]
      simp only [if_neg other, if_pos silent]
      rfl
    · have moved := recoverage_coverageOnly
        (s.setAlarm { s.alarm with records := put s.alarm.records e (some { r with sounding := false }) }) s.alarm
      refine ⟨s.silence e r, ?_, rfl, moved.alarm.records, moved.alarm.startOrder, moved.sendList,
        silence_coverage s e r, moved.mix, moved.memory⟩
      rw [run, found]
      simp only [if_neg other, sounding, Bool.true_eq_false, if_false]
      rfl

end

section
namespace Sys2Proof.Machine

/-! ### Timers and contact lines -/

theorem endRecord_free {s : State} {e : Fin 8} (h : s.alarm.records[e] = none) (cause : BitVec 4) :
    s.endRecord e cause = s := by
  unfold State.endRecord
  rw [h]

theorem contactActivate_due {s : State} {k : Fin 4} (idle : (s.alarm.contacts[k]).active = false)
    (run : (s.alarm.contacts[k]).run = 2400) : contactActivate k s =
      (s.setContact k { s.alarm.contacts[k] with active := true, run := 0 }).recordStarted (contactEntry k)
        (newRecord (.contact k) (s.alarm.contacts[k]).cls (s.alarm.contacts[k]).group (s.alarm.contacts[k]).pattern none
          4096 (s.alarm.contacts[k]).broadcast) :=
  (if_pos ⟨idle, run.ge⟩).trans (startRecord_eq _ _ _)

theorem contactClear_due {s : State} {k : Fin 4} (active : (s.alarm.contacts[k]).active = true)
    (run : (s.alarm.contacts[k]).run = 48000) : contactClear k s =
      (s.setContact k { s.alarm.contacts[k] with active := false, run := 0 }).endRecord (contactEntry k) alarmCleared :=
  if_pos ⟨active, run.ge⟩

theorem remote_iff (r : AlarmRec) : r.remote = true ↔ ∃ origin group, r.origin = .remote origin group := by
  unfold AlarmRec.remote
  cases r.origin <;> simp

end Sys2Proof.Machine

open Sys2Proof Sys2Proof.Machine

/-- Settles O53: each command at its count does what its record's start or end does. -/
theorem alarmTimersAndContactsAct : Obligations.AlarmTimersAndContactsAct := by
  intro s
  refine ⟨fun k => ⟨fun idle run => ?_, fun active run => ?_⟩, fun e r found => ⟨fun broadcast due => ?_,
    fun remote due => ?_⟩, fun i g found due => ?_⟩
  · refine ⟨_, rfl, contactActivate_due idle run, ?_⟩
    let u := s.setContact k { s.alarm.contacts[k] with active := true, run := 0 }
    let record := newRecord (.contact k) (s.alarm.contacts[k]).cls (s.alarm.contacts[k]).group
      (s.alarm.contacts[k]).pattern none 4096 (s.alarm.contacts[k]).broadcast
    have moved := recordStarted_moved u (contactEntry k) record
    rw [contactActivate_due idle run]
    exact ⟨moved.alarm.contacts, moved.alarm.records, moved.alarm.startOrder,
      fun _ => recordStarted_events u (contactEntry k) record, recordStarted_sendList u (contactEntry k) record,
      moved.mix, moved.memory⟩
  · let u := s.setContact k { s.alarm.contacts[k] with active := false, run := 0 }
    refine ⟨_, rfl, ?_⟩
    rw [contactClear_due active run]
    cases found : s.alarm.records[contactEntry k] with
    | none =>
      rw [endRecord_free (s := u) found]
      exact ⟨rfl, found, fun _ _ => rfl, fun present => absurd found present, fun _ => ⟨rfl, rfl, rfl, rfl⟩,
        fun r present => absurd (present.symm.trans found) (Option.some_ne_none r), rfl, rfl⟩
    | some r =>
      have ended : u.endRecord (contactEntry k) alarmCleared = u.recordEnded (contactEntry k) r 1 :=
        endRecord_eq u (contactEntry k) r found 1
      have moved := recordEnded_moved u (contactEntry k) r 1
      have records : (u.recordEnded (contactEntry k) r 1).alarm.records = put s.alarm.records (contactEntry k) none :=
        moved.alarm.records
      rw [ended]
      refine ⟨moved.alarm.contacts, ?_, fun f other => ?_, fun _ _ => recordEnded_events u (contactEntry k) r 1,
        fun absent => absurd (found.symm.trans absent) (Option.some_ne_none r), fun q same => ?_, moved.mix, moved.memory⟩
      · exact (congrArg (·[contactEntry k]) records).trans ((put_get _ _ _ _).trans (if_pos rfl))
      · rw [records, put_get]
        exact if_neg other
      · obtain rfl : r = q := Option.some.inj (found.symm.trans same)
        exact ⟨rfl, moved.alarm.startOrder, recordEnded_sendList u (contactEntry k) r 1⟩
  · change Host.Outcome.next (broadcastRefresh e s) = _
    unfold broadcastRefresh
    rw [found]
    simp only [if_pos (show r.broadcast = true ∧ 96000 ≤ r.broadcastTimer from ⟨broadcast, due.ge⟩), State.placeRecord,
      State.placeSend, placeSend_eq]
    rfl
  · have moved := recordEnded_moved s e r 4
    refine ⟨s.recordEnded e r 4, ?_, rfl, moved.alarm.records, moved.alarm.startOrder,
      fun _ => recordEnded_events s e r 4, moved.mix, moved.memory⟩
    change Host.Outcome.next (notConfirmed e s) = _
    unfold notConfirmed
    rw [found]
    have ended : s.endRecord e alarmNotConfirmed = s.recordEnded e r 4 := endRecord_eq s e r found 4
    simp only [if_pos (show r.remote = true ∧ 288000 ≤ r.refreshTimer from ⟨(remote_iff r).mpr remote, due.ge⟩), ended]
  · change Host.Outcome.next (generatorStepEnd i s) = _
    unfold generatorStepEnd
    rw [found]
    simp only [if_pos (show (s.alarm.stepAt g.pattern g.step).samples ≤ g.elapsed from due.ge)]
    rfl

end

section
/-! Ranking and the giving out of generators: winning records in rank order, which generator each takes, and the hand-off
of a change of coverage. -/

namespace Sys2Proof.Machine

/-! ### Ranks -/

theorem rank_of_record {a : Alarm} {e : Fin 8} {r : AlarmRec} (h : a.records[e] = some r) : a.rank e = r.cls.rank := by
  rw [Alarm.rank, h]
  rfl

theorem rank_lt (a : Alarm) (e : Fin 8) : a.rank e < 4 := by
  unfold Alarm.rank
  cases a.records[e] with
  | none => exact Nat.zero_lt_succ _
  | some r => exact (alarmClass_rank r.cls).2

theorem mem_ranked (a : Alarm) (es : List (Fin 8)) (e : Fin 8) : e ∈ a.ranked es ↔ e ∈ es := by
  refine ⟨mem_of_mem_ranked, fun h => List.mem_flatMap.mpr ⟨a.rank e, ?_, List.mem_filter.mpr ⟨h, beq_self_eq_true _⟩⟩⟩
  have := rank_lt a e
  simp only [List.mem_cons, List.not_mem_nil, or_false]
  omega

theorem above_irrefl (a : Alarm) (e : Fin 8) : ¬ a.above e e := by
  rintro ⟨r, q, hr, hq, rank⟩
  obtain rfl : r = q := Option.some.inj (hr.symm.trans hq)
  omega

theorem above_asymm {a : Alarm} {e f : Fin 8} (h : a.above e f) : ¬ a.above f e := by
  rintro ⟨q', r', hq', hr', other⟩
  obtain ⟨r, q, hr, hq, rank⟩ := h
  obtain rfl : r = r' := Option.some.inj (hr.symm.trans hr')
  obtain rfl : q = q' := Option.some.inj (hq.symm.trans hq')
  omega

theorem nodup_pairwise_idxOf {l : List (Fin 8)} (h : l.Nodup) : l.Pairwise (fun e f => l.idxOf e < l.idxOf f) := by
  rw [List.pairwise_iff_getElem]
  intro i j hi hj less
  rwa [h.idxOf_getElem, h.idxOf_getElem]

/-- A ranked part of the start order stands in rank order. -/
theorem ranked_above {a : Alarm} (nodup : a.startOrder.Nodup) (pick : Fin 8 → Bool)
    (present : ∀ e ∈ a.startOrder, pick e = true → a.records[e] ≠ none) :
    (a.ranked (a.startOrder.filter pick)).Pairwise a.above := by
  have record {e : Fin 8} {n : Nat} (h : e ∈ (a.startOrder.filter pick).filter (fun e => a.rank e == n)) :
      ∃ r, a.records[e] = some r ∧ r.cls.rank = n := by
    obtain ⟨inside, rank⟩ := List.mem_filter.mp h
    obtain ⟨order, picked⟩ := List.mem_filter.mp inside
    obtain ⟨r, hr⟩ := Option.ne_none_iff_exists'.mp (present e order picked)
    exact ⟨r, hr, (rank_of_record hr).symm.trans (beq_iff_eq.mp rank)⟩
  refine List.pairwise_flatMap.mpr ⟨fun n _ => ?_, ?_⟩
  · refine List.Pairwise.imp_of_mem (fun {e f} he hf earlier => ?_)
      ((nodup_pairwise_idxOf nodup).sublist (List.filter_sublist.trans List.filter_sublist))
    obtain ⟨r, hr, rankR⟩ := record he
    obtain ⟨q, hq, rankQ⟩ := record hf
    exact ⟨r, q, hr, hq, .inr ⟨rankQ.trans rankR.symm, earlier⟩⟩
  · have descend : [3, 2, 1, 0].Pairwise (fun n m : Nat => m < n) := by decide
    refine descend.imp fun {n m} less e he f hf => ?_
    obtain ⟨r, hr, rankR⟩ := record he
    obtain ⟨q, hq, rankQ⟩ := record hf
    exact ⟨r, q, hr, hq, .inl (by omega)⟩

/-- The head of a list in order is the one that stands before every other. -/
theorem head_eq_some_iff {α : Type} {R : α → α → Prop} (asymm : ∀ {x y}, R x y → ¬ R y x) {l : List α}
    (h : l.Pairwise R) (x : α) : l.head? = some x ↔ x ∈ l ∧ ∀ y ∈ l, y ≠ x → R x y := by
  cases l with
  | nil => simp
  | cons z rest =>
    obtain ⟨first, -⟩ := List.pairwise_cons.mp h
    rw [List.head?_cons, Option.some.injEq]
    constructor
    · rintro rfl
      exact ⟨List.mem_cons_self, fun y mem other => first y ((List.mem_cons.mp mem).resolve_left other)⟩
    · rintro ⟨mem, before⟩
      by_contra other
      exact asymm (first x ((List.mem_cons.mp mem).resolve_left fun same => other same.symm))
        (before z List.mem_cons_self other)

/-- The last of a list in order is the one that every other stands before. -/
theorem getLast_eq_some {α : Type} {R : α → α → Prop} (asymm : ∀ {x y}, R x y → ¬ R y x) {l : List α}
    (h : l.Pairwise R) {x : α} (mem : x ∈ l) (after : ∀ y ∈ l, y ≠ x → R y x) : l.getLast? = some x := by
  rw [← List.head?_reverse]
  exact (head_eq_some_iff (R := fun a b => R b a) asymm (List.pairwise_reverse.mpr h) x).mpr
    ⟨List.mem_reverse.mpr mem, fun y hy other => after y (List.mem_reverse.mp hy) other⟩

/-- The first of a list in order are those that few others stand before. -/
theorem mem_take_iff {α : Type} {R : α → α → Prop} (asymm : ∀ {x y}, R x y → ¬ R y x) {l : List α}
    (h : l.Pairwise R) (n : Nat) (x : α) :
    x ∈ l.take (n + 1) ↔ x ∈ l ∧ ∃ k : List α, k.length ≤ n ∧ ∀ y ∈ l, R y x → y ∈ k := by
  have nodup : l.Nodup := h.imp fun {x y} (less : R x y) (same : x = y) => by
    subst same
    exact asymm less less
  constructor
  · intro mem
    obtain ⟨before, after, split⟩ := List.append_of_mem mem
    have length := congrArg List.length split
    rw [List.length_append, List.length_cons, List.length_take] at length
    have whole : l = before ++ x :: (after ++ l.drop (n + 1)) := by
      rw [← List.cons_append, ← List.append_assoc, ← split, List.take_append_drop]
    refine ⟨List.mem_of_mem_take mem, before, by omega, fun y hy less => ?_⟩
    rw [whole, List.mem_append] at hy
    refine hy.resolve_right fun later => ?_
    rw [whole, List.pairwise_append] at h
    obtain ⟨-, tail, -⟩ := h
    rcases List.mem_cons.mp later with rfl | later
    · exact asymm less less
    · exact asymm less ((List.pairwise_cons.mp tail).1 y later)
  · rintro ⟨mem, k, short, covers⟩
    rw [← List.take_append_drop (n + 1) l, List.mem_append] at mem
    refine mem.resolve_right fun late => ?_
    have full : (l.take (n + 1)).length = n + 1 := by
      have := List.length_pos_of_mem late
      rw [List.length_drop] at this
      rw [List.length_take]
      omega
    have ahead : ∀ y ∈ l.take (n + 1), R y x := fun y hy => by
      rw [← List.take_append_drop (n + 1) l, List.pairwise_append] at h
      exact h.2.2 y hy x late
    have inside : l.take (n + 1) ⊆ k := fun y hy => covers y (List.mem_of_mem_take hy) (ahead y hy)
    have := ((nodup.sublist (List.take_sublist _ _)).subperm inside).length_le
    omega

/-! ### Winners -/

theorem covers_iff (a : Alarm) (z : Fin 24) (e : Fin 8) : a.covers z e = true ↔
    ∃ r, a.records[e] = some r ∧ r.sounding = true ∧ (a.groups[r.group]).getLsbD z.val = true := by
  simp only [Alarm.covers, Option.any_eq_true, Bool.and_eq_true, hasZone]

theorem winnerOf_eq_some_iff {a : Alarm} (nodup : a.startOrder.Nodup)
    (order : ∀ e : Fin 8, e ∈ a.startOrder ↔ a.records[e] ≠ none) (z : Fin 24) (e : Fin 8) :
    a.winnerOf z = some e ↔ a.covers z e = true ∧ ∀ f : Fin 8, f ≠ e → a.covers z f = true → a.above e f := by
  have mem (f : Fin 8) : f ∈ a.ranked (a.startOrder.filter (a.covers z)) ↔ a.covers z f = true := by
    rw [mem_ranked, List.mem_filter]
    refine and_iff_right_of_imp fun covers => (order f).mpr ?_
    obtain ⟨r, hr, -⟩ := (covers_iff a z f).mp covers
    rw [hr]
    exact Option.some_ne_none r
  rw [Alarm.winnerOf, head_eq_some_iff above_asymm
    (ranked_above nodup _ fun f inside _ => (order f).mp inside), mem]
  exact and_congr_right fun _ => ⟨fun h f other covers => h f ((mem f).mpr covers) other,
    fun h f inside other => h f other ((mem f).mp inside)⟩

section Winners

variable {a : Alarm} (nodup : a.startOrder.Nodup) (order : ∀ e : Fin 8, e ∈ a.startOrder ↔ a.records[e] ≠ none)

include nodup order

theorem winners_above : a.winners.Pairwise a.above :=
  ranked_above nodup _ fun e inside _ => (order e).mp inside

omit nodup in
theorem mem_winners_iff (wins : ∀ e, a.wins e → a.records[e] ≠ none) (e : Fin 8) : e ∈ a.winners ↔ a.wins e := by
  rw [Alarm.winners, mem_ranked, List.mem_filter, List.any_eq_true]
  have some_zone : (∃ z ∈ allZones, (a.coverage[z] == some e) = true) ↔ a.wins e :=
    ⟨fun ⟨z, _, h⟩ => ⟨z, beq_iff_eq.mp h⟩, fun ⟨z, h⟩ => ⟨z, mem_allZones z, beq_iff_eq.mpr h⟩⟩
  rw [some_zone]
  exact and_iff_right_of_imp fun h => (order e).mpr (wins e h)

/-- The first four winners are those that at most three winners rank above. -/
theorem mem_first_iff (wins : ∀ e, a.wins e → a.records[e] ≠ none) (e : Fin 8) : e ∈ a.winners.take 4 ↔
    a.wins e ∧ ∃ l : List (Fin 8), l.length ≤ 3 ∧ ∀ f : Fin 8, a.wins f → a.above f e → f ∈ l := by
  rw [mem_take_iff above_asymm (winners_above nodup order) 3]
  simp only [mem_winners_iff order wins]

end Winners

/-! ### The giving out of generators -/

/-- A taken generator stays with its record. -/
theorem takeGenerator_stays {a : Alarm} (e : Fin 8) {i : Fin 4} {g : Generator} (h : a.generators[i] = some g) :
    (a.takeGenerator e).generators[i] = some g := by
  rcases takeGenerator_cases a e with ⟨-, same⟩ | ⟨-, -, same⟩ | ⟨j, -, free, -, same⟩
  · rwa [same]
  · rwa [same]
  · have other : i ≠ j := by
      rintro rfl
      exact Option.some_ne_none g (h.symm.trans free)
    simp only [same, put_get, if_neg other, h]

theorem foldl_takeGenerator_stays (l : List (Fin 8)) {a : Alarm} {i : Fin 4} {g : Generator}
    (h : a.generators[i] = some g) : (l.foldl Alarm.takeGenerator a).generators[i] = some g := by
  induction l generalizing a with
  | nil => exact h
  | cons e rest ih => exact ih (takeGenerator_stays e h)

/-- The entry sounds on the generator. -/
def Alarm.heldBy (a : Alarm) (e : Fin 8) (i : Fin 4) : Prop := ∃ g, a.generators[i] = some g ∧ g.entry = e

theorem takeGenerator_heldBy {a : Alarm} {e f : Fin 8} {i : Fin 4} (other : f ≠ e)
    (h : (a.takeGenerator e).heldBy f i) : a.heldBy f i := by
  obtain ⟨g, hg, entry⟩ := h
  rcases takeGenerator_entry hg with old | new
  · exact ⟨g, old, entry⟩
  · exact absurd (entry.symm.trans new) other

/-- Four different records hold the four generators. -/
theorem four_holders {a : Alarm} (apart : a.generatorsApart) {l : List (Fin 8)}
    (full : ∀ i : Fin 4, a.generators[i] ≠ none) (inside : ∀ (i : Fin 4) (g : Generator), a.generators[i] = some g → g.entry ∈ l) :
    4 ≤ l.length := by
  choose g hg using fun i => Option.ne_none_iff_exists'.mp (full i)
  have nodup : (List.ofFn fun i => (g i).entry).Nodup :=
    List.nodup_ofFn.mpr fun i j same => apart i j (g i) (g j) (hg i) (hg j) same
  have sub : (List.ofFn fun i => (g i).entry) ⊆ l := fun e mem => by
    obtain ⟨i, rfl⟩ := List.mem_ofFn.mp mem
    exact inside i (g i) (hg i)
  have length := (nodup.subperm sub).length_le
  rwa [List.length_ofFn] at length

/-- Of at most four records that alone hold generators, each one that asks holds one. -/
theorem takeGenerator_holds {a : Alarm} (apart : a.generatorsApart) {l : List (Fin 8)} (small : l.length ≤ 4)
    (inside : ∀ (i : Fin 4) (g : Generator), a.generators[i] = some g → g.entry ∈ l) {e : Fin 8} (mem : e ∈ l) : ∃ i, (a.takeGenerator e).heldBy e i := by
  rcases takeGenerator_cases a e with ⟨holds, same⟩ | ⟨noHold, full, -⟩ | ⟨i, -, -, -, same⟩
  · obtain ⟨i, g, hg, entry⟩ := (holds_iff a e).mp holds
    exact ⟨i, g, by rwa [same], entry⟩
  · have others := four_holders apart (l := l.erase e) full fun i g hg => by
      have other : g.entry ≠ e := fun entry =>
        Bool.false_ne_true (noHold.symm.trans ((holds_iff a e).mpr ⟨i, g, hg, entry⟩))
      exact (List.mem_erase_of_ne other).mpr (inside i g hg)
    rw [List.length_erase_of_mem mem] at others
    omega
  · exact ⟨i, a.newGenerator e, by rw [same]; simp only [put_get, if_true], rfl⟩

theorem foldl_takeGenerator_holds {all l : List (Fin 8)} {a : Alarm} (apart : a.generatorsApart) (small : all.length ≤ 4)
    (inside : ∀ (i : Fin 4) (g : Generator), a.generators[i] = some g → g.entry ∈ all) (sub : l ⊆ all) {e : Fin 8} (mem : e ∈ l) :
    ∃ i, (l.foldl Alarm.takeGenerator a).heldBy e i := by
  induction l generalizing a with
  | nil => cases mem
  | cons x rest ih =>
    obtain ⟨first, sub⟩ := List.cons_subset.mp sub
    rcases List.mem_cons.mp mem with rfl | mem
    · obtain ⟨i, g, hg, entry⟩ := takeGenerator_holds apart small inside first
      exact ⟨i, g, foldl_takeGenerator_stays rest hg, entry⟩
    · refine ih (takeGenerator_apart x apart) (fun i g hg => ?_) sub mem
      rcases takeGenerator_entry hg with old | new
      · exact inside i g old
      · rwa [new]

theorem newGenerator_takeGenerator (a : Alarm) (x e : Fin 8) : (a.takeGenerator x).newGenerator e = a.newGenerator e := by
  unfold Alarm.newGenerator
  rw [(takeGenerator_coverage a x).2.records]

/-- A record that comes to hold a generator starts its pattern on the lowest free one, in the order of the list. -/
theorem foldl_takeGenerator_new {R : Fin 8 → Fin 8 → Prop} (asymm : ∀ {x y}, R x y → ¬ R y x) {l : List (Fin 8)}
    (sorted : l.Pairwise R) {a : Alarm} {e : Fin 8} {i : Fin 4} (h : (l.foldl Alarm.takeGenerator a).heldBy e i)
    (new : ∀ j, ¬ a.heldBy e j) :
    (l.foldl Alarm.takeGenerator a).generators[i] = some (a.newGenerator e) ∧
    (∀ j < i, (l.foldl Alarm.takeGenerator a).generators[j] ≠ none) ∧
    ∀ f j, (l.foldl Alarm.takeGenerator a).heldBy f j → (∀ k, ¬ a.heldBy f k) → R e f → i < j := by
  induction l generalizing a with
  | nil => exact absurd h (new i)
  | cons x rest ih =>
    obtain ⟨later, sorted⟩ := List.pairwise_cons.mp sorted
    rw [List.foldl_cons] at h ⊢
    obtain ⟨g, hg, entry⟩ := h
    have irrefl {y} (h : R y y) : False := asymm h h
    by_cases same : e = x
    · subst same
      have absent : e ∉ rest := fun mem => irrefl (later e mem)
      have taken : (a.takeGenerator e).generators[i] = some g :=
        (foldl_takeGenerator_entry hg).resolve_right (by rwa [entry])
      rcases takeGenerator_cases a e with ⟨-, none⟩ | ⟨-, -, none⟩ | ⟨k, -, -, lower, put_eq⟩
      · exact absurd ⟨g, none ▸ taken, entry⟩ (new i)
      · exact absurd ⟨g, none ▸ taken, entry⟩ (new i)
      · have at_k : i = k := by
          by_contra other
          rw [put_eq] at taken
          simp only [put_get, if_neg other] at taken
          exact new i ⟨g, taken, entry⟩
        subst at_k
        have stays (j : Fin 4) (less : j ≤ i) : ∃ q, (a.takeGenerator e).generators[j] = some q := by
          by_cases here : j = i
          · exact ⟨g, here ▸ taken⟩
          · obtain ⟨q, hq⟩ := Option.ne_none_iff_exists'.mp (lower j (lt_of_le_of_ne less here))
            exact ⟨q, takeGenerator_stays e hq⟩
        refine ⟨?_, fun j less => ?_, fun f j heldF newF less => ?_⟩
        · rw [put_eq] at taken
          simp only [put_get, if_true] at taken
          exact hg.trans taken.symm
        · obtain ⟨q, hq⟩ := stays j less.le
          rw [foldl_takeGenerator_stays rest hq]
          exact Option.some_ne_none q
        · by_contra notLess
          obtain ⟨q, hq⟩ := stays j (not_lt.mp notLess)
          obtain ⟨q', hq', entryF⟩ := heldF
          have same := Option.some.inj ((foldl_takeGenerator_stays rest hq).symm.trans hq')
          have other : f ≠ e := fun h => irrefl (h ▸ less)
          exact newF j (takeGenerator_heldBy other ⟨q, hq, same ▸ entryF⟩)
    · have new' (j) : ¬ (a.takeGenerator x).heldBy e j := fun h => new j (takeGenerator_heldBy same h)
      obtain ⟨is, lower, before⟩ := ih sorted ⟨g, hg, entry⟩ new'
      refine ⟨newGenerator_takeGenerator a x e ▸ is, lower, fun f j heldF newF less => ?_⟩
      have mem : e ∈ rest := by
        rcases foldl_takeGenerator_entry hg with old | later
        · exact absurd ⟨g, old, entry⟩ (new' i)
        · rwa [← entry]
      have other : f ≠ x := by
        rintro rfl
        exact asymm less (later e mem)
      exact before f j heldF (fun k h => newF k (takeGenerator_heldBy other h)) less

section Allocate

variable {a : Alarm}

theorem allocate_kept {i : Fin 4} {g : Generator} (h : a.generators[i] = some g) (first : g.entry ∈ a.winners.take 4) :
    a.allocate.generators[i] = some g := by
  rw [allocate_eq]
  exact foldl_takeGenerator_stays _ (keepGenerators_get.mpr ⟨h, by simpa using first⟩)

theorem allocate_holds (apart : a.generatorsApart) {e : Fin 8} (first : e ∈ a.winners.take 4) :
    ∃ i, a.allocate.heldBy e i := by
  rw [allocate_eq]
  refine foldl_takeGenerator_holds (all := a.winners.take 4) (keepGenerators_apart _ apart) (List.length_take_le _ _)
    (fun i g hg => ?_) (List.Subset.refl _) first
  simpa using (keepGenerators_get.mp hg).2

theorem keepGenerators_new {pick : Fin 8 → Bool} {e : Fin 8} (new : ∀ j, ¬ a.heldBy e j) (j : Fin 4) :
    ¬ (a.keepGenerators pick).heldBy e j := fun ⟨g, hg, entry⟩ => new j ⟨g, (keepGenerators_get.mp hg).1, entry⟩

theorem allocate_new (sorted : a.winners.Pairwise a.above) {e : Fin 8} {i : Fin 4} (h : a.allocate.heldBy e i)
    (new : ∀ j, ¬ a.heldBy e j) :
    a.allocate.generators[i] = some (a.newGenerator e) ∧ (∀ j < i, a.allocate.generators[j] ≠ none) ∧
    ∀ f j, a.allocate.heldBy f j → (∀ k, ¬ a.heldBy f k) → a.above e f → i < j := by
  rw [allocate_eq] at h ⊢
  obtain ⟨is, lower, before⟩ := foldl_takeGenerator_new above_asymm (sorted.sublist (List.take_sublist _ _)) h
    (keepGenerators_new new)
  exact ⟨is, lower, fun f j heldF newF less => before f j heldF (keepGenerators_new newF) less⟩

end Allocate

/-! ### The hand-off -/

theorem map_indices_eq {α β : Type} {n : Nat} (v : Vector α n) (f : α → β) :
    (indices n).map (fun i => f v[i]) = v.toList.map f := by
  refine List.ext_getElem (by simp [indices]) fun i h k => ?_
  rw [List.getElem_map, List.getElem_map, Vector.getElem_toList]
  exact congrArg f (congrArg (v[·]) (List.getElem_ofFn _))

/-- What the neighbours see of a winner. -/
def Alarm.shown (a : Alarm) (w : Option (Fin 8)) : Option (Fin 8 × Option AlarmClass) :=
  w.map (fun e => (e, (a.records[e]).map (·.cls)))

theorem presented_eq (a : Alarm) : a.presented = a.coverage.toList.map a.shown := map_indices_eq a.coverage a.shown

theorem recoverage_eq (s : State) (before : Alarm) : s.recoverage before =
    if s.alarm.recompute.presented = before.presented then s.setAlarm s.alarm.recompute
    else (s.setAlarm s.alarm.recompute).handScheduler.handIntercom := rfl

theorem resettled_hold {s : State} {x : Call} (h : x.state = .connected ∧ s.heldNow x) :
    s.resettled x = { x with state := .held, holdTimer := 0 } := by
  obtain ⟨connected, held⟩ := h
  unfold State.resettled
  rw [connected]
  exact if_pos ((underHold_iff s x).mpr held)

theorem resettled_resume {s : State} {x : Call} (h : x.state = .held ∧ ¬ s.heldNow x) :
    s.resettled x = { x with state := .connected } := by
  obtain ⟨held, free⟩ := h
  unfold State.resettled
  rw [held]
  exact if_neg (mt (underHold_iff s x).mp free)

theorem resettled_same {s : State} {x : Call} (hold : ¬ (x.state = .connected ∧ s.heldNow x))
    (resume : ¬ (x.state = .held ∧ ¬ s.heldNow x)) : s.resettled x = x := by
  unfold State.resettled
  split
  · exact if_neg fun held => hold ⟨‹_›, (underHold_iff s x).mp held⟩
  · exact if_pos ((underHold_iff s x).mpr (not_not.mp fun free => resume ⟨‹_›, free⟩))
  · rfl

theorem insertReset_eq (s : State) (l : List Call) (i : Insert) : s.insertReset l i =
    if l.any (fun c => s.comesToHold c && i.source == .trunkCall c.id) then { i with clash := 0, reported := false }
    else i := rfl

theorem resets_iff (s : State) (l : List Call) (i : Insert) :
    l.any (fun c => s.comesToHold c && i.source == .trunkCall c.id) = true ↔
      ∃ x ∈ l, (x.state = .connected ∧ s.heldNow x) ∧ i.source = .trunkCall x.id := by
  simp only [List.any_eq_true, State.comesToHold, Bool.and_eq_true, beq_iff_eq, underHold_iff]

theorem SameRecords.eq {a b : Alarm} (h : SameRecords a b) :
    b = { a with coverage := b.coverage, generators := b.generators } := by
  obtain ⟨patterns, groups, contacts, records, startOrder⟩ := h
  cases b
  simp only at patterns groups contacts records startOrder
  subst patterns groups contacts records startOrder
  rfl

theorem SameRecords.above_iff {a b : Alarm} (h : SameRecords a b) (e f : Fin 8) : b.above e f ↔ a.above e f := by
  unfold Alarm.above
  rw [h.records, h.startOrder]

/-- The alarm engine with other coverage. -/
def Alarm.withCoverage (a : Alarm) (v : Vector (Option (Fin 8)) 24) : Alarm := { a with coverage := v }

theorem recompute_eq (a : Alarm) : ∃ v : Vector (Option (Fin 8)) 24, (∀ z : Fin 24, v[z] = a.winnerOf z) ∧
    a.recompute = (a.withCoverage v).allocate :=
  ⟨Vector.ofFn a.winnerOf, fun z => by simp, rfl⟩

section Recovered

variable {a : Alarm} {v : Vector (Option (Fin 8)) 24} (winner : ∀ z : Fin 24, v[z] = a.winnerOf z)

include winner

theorem withCoverage_wins {e : Fin 8} (h : (a.withCoverage v).wins e) : (a.withCoverage v).records[e] ≠ none := by
  obtain ⟨z, wins⟩ := h
  obtain ⟨r, found, -⟩ := (covers_iff a z e).mp (winnerOf_covers a z e ((winner z).symm.trans wins))
  change a.records[e] ≠ none
  rw [found]
  exact Option.some_ne_none r

/-- Who the first four winners are, in the terms of the statement. -/
theorem allocate_first_iff (nodup : a.startOrder.Nodup) (order : ∀ e : Fin 8, e ∈ a.startOrder ↔ a.records[e] ≠ none)
    (e : Fin 8) : e ∈ (a.withCoverage v).winners.take 4 ↔
      (a.withCoverage v).allocate.wins e ∧ ∃ l : List (Fin 8), l.length ≤ 3 ∧
        ∀ f : Fin 8, (a.withCoverage v).allocate.wins f → (a.withCoverage v).allocate.above f e → f ∈ l := by
  obtain ⟨coverage, same⟩ := allocate_coverage (a.withCoverage v)
  have wins (f : Fin 8) : (a.withCoverage v).allocate.wins f ↔ (a.withCoverage v).wins f := by
    unfold Alarm.wins
    rw [coverage]
  rw [mem_first_iff (a := a.withCoverage v) nodup order (fun _ => withCoverage_wins winner)]
  simp only [wins, same.above_iff]

end Recovered

/-- The hand-off of a change of coverage, to the pages and then to the calls. -/
theorem handOff_eq {s : State} (ok : s.callsOk) : s.handScheduler.handIntercom = { s.handScheduler with
    ring := { s.ring with inserts := s.ring.inserts.map (s.insertReset s.icom.calls) }
    icom := { s.icom with calls := s.icom.calls.map s.resettled } } := by
  have frame := handScheduler_pagesFrame s
  have general : s.handScheduler.underGeneral = s.underGeneral := funext fun z => by
    simp only [State.underGeneral, State.winner, frame.alarm]
  have hold (c : Call) : s.handScheduler.underHold c = s.underHold c := by
    simp only [State.underHold, State.listenZone, general, frame.icom]
  have calls : s.handScheduler.resettled = s.resettled := funext fun c => by simp only [State.resettled, hold]
  have comes : s.handScheduler.comesToHold = s.comesToHold := funext fun c => by simp only [State.comesToHold, hold]
  have inserts : s.handScheduler.insertReset = s.insertReset := by
    unfold State.insertReset
    rw [comes]
  rw [handIntercom_eq (s := s.handScheduler) (by rw [frame.icom]; exact State.callsOk.idsApart ok), calls, inserts,
    frame.icom, frame.ring]

end Sys2Proof.Machine

open Sys2Proof Sys2Proof.Machine

/-- Settles O54: coverage is the head of the ranked covering records, generators follow the fold over the first four
winners, and a hand-off maps calls and inserts in place. -/
theorem coverageFollowsTheRecords : Obligations.CoverageFollowsTheRecords := by
  intro s before recordsOk callsOk a
  obtain ⟨nodup, order, apart⟩ := recordsOk
  have same := (recompute_spec a).2
  have recoverage := recoverage_eq s before
  obtain ⟨v, winner, recomputed⟩ := recompute_eq a
  change s.recoverage before = if a.recompute.presented = before.presented then s.setAlarm a.recompute
    else (s.setAlarm a.recompute).handScheduler.handIntercom at recoverage
  generalize a.recompute = b at same recoverage recomputed
  have coverage : b.coverage = v := by rw [recomputed, (allocate_coverage _).1]; rfl
  refine ⟨b, same.eq, ?_⟩
  intro c covers first held winners hold resume
  have first_iff (e : Fin 8) : first e ↔ e ∈ (a.withCoverage v).winners.take 4 := by
    rw [allocate_first_iff winner nodup order, ← recomputed]
  have sorted : (a.withCoverage v).winners.Pairwise (a.withCoverage v).above :=
    winners_above (a := a.withCoverage v) nodup order
  have presented (x : Alarm) : winners x = x.presented := (presented_eq x).symm
  refine ⟨fun z e => ?_, fun e i sounds => ?_, fun e isFirst => ?_, fun e i isFirst sounded => ?_,
    fun e i r found sounds new => ?_, fun unchanged => ?_, fun changed => ?_⟩
  · rw [coverage, winner z, winnerOf_eq_some_iff nodup order]
    exact and_congr (covers_iff a z e) (forall_congr' fun f => imp_congr_right fun _ => imp_congr_left (covers_iff a z f))
  · obtain ⟨g, hg, rfl⟩ := sounds
    rw [recomputed] at hg
    exact (first_iff g.entry).mpr (allocate_winner hg)
  · change ∃ i, b.heldBy e i
    rw [recomputed]
    exact allocate_holds (a := a.withCoverage v) apart ((first_iff e).mp isFirst)
  · obtain ⟨g, hg, rfl⟩ := sounded
    rw [recomputed]
    exact (allocate_kept (a := a.withCoverage v) hg ((first_iff g.entry).mp isFirst)).trans hg.symm
  · have sounds' : b.heldBy e i := sounds
    rw [recomputed] at sounds'
    obtain ⟨is, lower, before⟩ := allocate_new (a := a.withCoverage v) sorted sounds' new
    rw [← recomputed] at is lower before
    refine ⟨is.trans (congrArg some ?_), lower, before⟩
    change Generator.start e (((a.records[e]).map (·.pattern)).getD 0) = _
    rw [found]
    rfl
  · rw [recoverage, if_pos (by rw [← presented, ← presented]; exact unchanged)]
    rfl
  · rw [if_neg (by rw [← presented, ← presented]; exact changed)] at recoverage
    have handed := handOff_eq (s := c) callsOk
    refine ⟨_, rfl, ?_⟩
    have eq : s.recoverage before = c.handScheduler.handIntercom := recoverage
    rw [eq, handed]
    refine ⟨rfl, rfl, rfl, List.length_map _, List.length_map _, fun n x found => ?_, fun n i found => ?_⟩
    · have at_n : (s.icom.calls.map c.resettled)[n]? = some (c.resettled x) := by
        rw [List.getElem?_map, found]
        rfl
      exact ⟨fun h => at_n.trans (congrArg some (resettled_hold h)),
        fun h => at_n.trans (congrArg some (resettled_resume h)),
        fun notHold notResume => at_n.trans (congrArg some (resettled_same notHold notResume))⟩
    · have at_n : (s.ring.inserts.map (c.insertReset s.icom.calls))[n]? = some (c.insertReset s.icom.calls i) := by
        rw [List.getElem?_map, found]
        rfl
      refine ⟨fun reset => at_n.trans (congrArg some (if_pos ((resets_iff c _ i).mpr reset))),
        fun none => at_n.trans (congrArg some (if_neg fun reset => ?_))⟩
      obtain ⟨x, mem, held, source⟩ := (resets_iff c _ i).mp reset
      exact none x mem held source

end

section
/-! An accepted alert word: the refresh, the start, the displacement and the end of a REMOTE record. -/

namespace Sys2Proof.Machine

/-! ### Overflow stays -/

theorem post_overflow {s : State} (h : s.ctl.overflow = true) (k : EventKind) (n : Word16) (d : BitVec 4) :
    (s.post k n d).ctl.overflow = true := by
  rw [post_ctl]
  split
  · exact h
  · rfl

theorem suspendPage_overflow {s : State} (h : s.ctl.overflow = true) (id : PageId) :
    (s.suspendPage id).ctl.overflow = true := by
  let u := (s.freePage id).updatePage id (fun p =>
    { p with state := .suspended, granted := 0, joining := 0, restartIn := none, suspPosted := true })
  have still : u.ctl.overflow = true := (congrArg Control.overflow (freePage_ctl s id)).trans h
  have eq : s.suspendPage id = if (s.page id).any (·.suspPosted) then u else u.post .pageSuspended id 0 := rfl
  rw [eq]
  split
  · exact still
  · exact post_overflow still _ _ _

theorem losePage_overflow (lost : ZoneSet) (id : PageId) {r : State × Bool} (h : r.1.ctl.overflow = true) :
    (losePage lost id r).1.ctl.overflow = true := by
  unfold losePage
  split
  · split
    · exact suspendPage_overflow h id
    · split <;> exact h
  · exact h

theorem revoke_overflow {s : State} (h : s.ctl.overflow = true) : s.revoke.ctl.overflow = true := by
  unfold State.revoke
  generalize s.pageIds = l
  have start : (s, false).1.ctl.overflow = true := h
  generalize (s, false) = r at start
  induction l generalizing r with
  | nil => exact start
  | cons id rest ih =>
    refine ih _ ?_
    beta_reduce
    split
    · exact losePage_overflow _ id start
    · exact start

theorem recoverage_overflow {s : State} (h : s.ctl.overflow = true) (before : Alarm) :
    (s.recoverage before).ctl.overflow = true := by
  rw [recoverage_eq]
  split
  · exact h
  · rw [(handIntercom_holdsOnly _).rest]
    exact revoke_overflow (s := s.setAlarm s.alarm.recompute) h

theorem withEvent_room {s : State} (h : s.ctl.events.length < 16) (k : EventKind) (n d : Nat) :
    (s.withEvent k n d).ctl.events = s.ctl.events ++ [{
      kind := k, stamp := s.ring.cycleNumber.extractLsb' 9 7, subject := word n, detail := BitVec.ofNat 4 d }] :=
  (congrArg Control.events (if_pos h) :)

theorem withEvent_full {s : State} (h : ¬ s.ctl.events.length < 16) (k : EventKind) (n d : Nat) :
    (s.withEvent k n d).ctl.events = s.ctl.events ∧ (s.withEvent k n d).ctl.overflow = true :=
  ⟨(congrArg Control.events (if_neg h) :), (congrArg Control.overflow (if_neg h) :)⟩

theorem recordStarted_overflow {s : State} (full : ¬ s.ctl.events.length < 16) (e : Fin 8) (r : AlarmRec) :
    (s.recordStarted e r).ctl.overflow = true := by
  unfold State.recordStarted
  refine recoverage_overflow ?_ _
  rw [sending_eq]
  exact (withEvent_full full .alarmBegun e.val r.cls.rank).2

/-! ### The word and the record it names -/

theorem alertWordArrival_accepted {s : State} {w : BitVec 26} (locked : s.ring.rx = .locked)
    (accepted : s.alertAccepted w = true) : ∃ f : Forward, alertWordArrival w s =
      { s.alertWordIn w with ring := { (s.alertWordIn w).ring with forward := f } } := by
  rw [alertWordArrival_locked locked, if_pos accepted]
  split
  · exact ⟨_, rfl⟩
  · exact ⟨_, rfl⟩

theorem alertClass_eq {w : BitVec 26} {cls : AlarmClass} (h : cls.rank = (w.extractLsb' 13 2).toNat) :
    alertClass w = cls := by
  rw [alertClass, ← h, (alarmClass_rank cls).1]
  rfl

theorem remoteEntry_none_iff (a : Alarm) (origin : NodeAddr) (group : Fin 8) : a.remoteEntry origin group = none ↔
    ∀ e : Fin 8, ¬ ∃ r, a.records[e] = some r ∧ r.origin = .remote origin group := by
  unfold Alarm.remoteEntry
  simp only [List.find?_eq_none, mem_indices, forall_const, Option.any_eq_true, beq_iff_eq]

theorem remoteEntry_some {a : Alarm} {origin : NodeAddr} {group : Fin 8} {e : Fin 8}
    (own : ∃ r, a.records[e] = some r ∧ r.origin = .remote origin group)
    (lowest : ∀ f : Fin 8, f < e → ¬ ∃ r, a.records[f] = some r ∧ r.origin = .remote origin group) :
    a.remoteEntry origin group = some e := by
  refine (find_indices_iff _ e).mpr ⟨?_, fun f less => ?_⟩
  · simpa only [Option.any_eq_true, beq_iff_eq] using own
  · rw [← Bool.not_eq_true]
    simpa only [Option.any_eq_true, beq_iff_eq] using lowest f less

section Words

variable {s : State} {w : BitVec 26} {e : Fin 8} {r : AlarmRec}

theorem alertWordIn_refresh (entry : s.alarm.remoteEntry (alertOrigin w) (alertGroup w) = some e)
    (found : s.alarm.records[e] = some r) (kind : alertKind w = 1) :
    s.alertWordIn w = s.refresh e r (alertClass w) (alertPattern w) := by
  unfold State.alertWordIn
  rw [entry, if_pos kind, Option.bind_some, found]
  rfl

theorem alertWordIn_off (entry : s.alarm.remoteEntry (alertOrigin w) (alertGroup w) = some e)
    (found : s.alarm.records[e] = some r) (kind : alertKind w = 2) :
    s.alertWordIn w = s.recordEnded e r 3 := by
  have other : ¬ alertKind w = 1 := by
    rw [kind]
    decide
  unfold State.alertWordIn
  rw [entry, if_neg other, Option.bind_some, found]
  exact endRecord_eq s e r found 3

theorem alertWordIn_start (entry : s.alarm.remoteEntry (alertOrigin w) (alertGroup w) = none) (kind : alertKind w = 1) :
    s.alertWordIn w = s.startRemote (alertOrigin w) (alertGroup w) (alertClass w) (alertPattern w) := by
  unfold State.alertWordIn
  rw [entry, if_pos kind]
  rfl

theorem alertWordIn_ignored (entry : s.alarm.remoteEntry (alertOrigin w) (alertGroup w) = none) (kind : alertKind w = 2) :
    s.alertWordIn w = s := by
  have other : ¬ alertKind w = 1 := by
    rw [kind]
    decide
  unfold State.alertWordIn
  rw [entry, if_neg other]
  rfl

end Words

/-! ### The refresh -/

/-- The record and its generator after a refresh, coverage not yet computed anew (R163). -/
def Alarm.refreshed (a : Alarm) (e : Fin 8) (r : AlarmRec) (cls : AlarmClass) (pattern : Fin 8) : Alarm :=
  { a with records := put a.records e (some { r with
      refreshTimer := 0, cls := cls, pattern := pattern, sounding := r.sounding || cls == AlarmClass.general }) }.restartGenerator
    e pattern

theorem refresh_eq (s : State) (e : Fin 8) (r : AlarmRec) (cls : AlarmClass) (pattern : Fin 8) :
    s.refresh e r cls pattern =
      if (r.sounding || cls == AlarmClass.general) = true ∧ (r.cls ≠ cls ∨ r.pattern ≠ pattern ∨ r.sounding = false) then
        (s.setAlarm (s.alarm.refreshed e r cls pattern)).recoverage s.alarm
      else s.setAlarm (s.alarm.refreshed e r cls pattern) := rfl

theorem refresh_alarm (s : State) (e : Fin 8) (r : AlarmRec) (cls : AlarmClass) (pattern : Fin 8) :
    (s.refresh e r cls pattern).alarm = s.alarm.refreshed e r cls pattern ∨
      (s.refresh e r cls pattern).alarm = (s.alarm.refreshed e r cls pattern).recompute := by
  rw [refresh_eq]
  split
  · exact .inr (recoverage_alarm _ _)
  · exact .inl rfl

theorem refresh_sameRecords (s : State) (e : Fin 8) (r : AlarmRec) (cls : AlarmClass) (pattern : Fin 8) :
    SameRecords (s.alarm.refreshed e r cls pattern) (s.refresh e r cls pattern).alarm := by
  rcases refresh_alarm s e r cls pattern with same | anew
  · exact same ▸ .refl _
  · exact anew ▸ (recompute_spec _).2

/-- A generator that a record holds before and after coverage is computed anew goes on. -/
theorem recompute_holder {a : Alarm} {i : Fin 4} {g g' : Generator} (held : a.generators[i] = some g)
    (still : a.recompute.generators[i] = some g') (same : g'.entry = g.entry) : g' = g := by
  obtain ⟨v, -, eq⟩ := recompute_eq a
  rw [eq] at still
  have first := allocate_winner still
  rw [same] at first
  exact Option.some.inj (still.symm.trans (allocate_kept (a := a.withCoverage v) held first))

theorem refresh_holder {s : State} {e : Fin 8} {r : AlarmRec} {cls : AlarmClass} {pattern : Fin 8} {i : Fin 4}
    {g g' : Generator} (held : (s.alarm.refreshed e r cls pattern).generators[i] = some g)
    (still : (s.refresh e r cls pattern).alarm.generators[i] = some g') (same : g'.entry = g.entry) : g' = g := by
  rcases refresh_alarm s e r cls pattern with unchanged | anew
  · rw [congrArg Alarm.generators unchanged] at still
    exact Option.some.inj (still.symm.trans held)
  · rw [congrArg Alarm.generators anew] at still
    exact recompute_holder held still same

theorem refreshed_generator {a : Alarm} {e : Fin 8} {r : AlarmRec} {cls : AlarmClass} {pattern : Fin 8} {i : Fin 4}
    {g : Generator} (held : a.generators[i] = some g) (own : g.entry = e) :
    (a.refreshed e r cls pattern).generators[i] =
      some (if g.pattern ≠ pattern then Generator.start e pattern else g) := by
  unfold Alarm.refreshed Alarm.restartGenerator
  rw [mapTable_get, held, Option.map_some]
  simp only [own, true_and]

/-! ### The start -/

theorem filter_ne_filter {l : List (Fin 8)} {e : Fin 8} : (l.filter (· != e)).filter (· != e) = l.filter (· != e) :=
  List.filter_filter.trans (List.filter_congr fun _ _ => Bool.and_self _)

/-- The shared entry of the lowest class, the latest started of them (R164). -/
theorem displaceable_eq {a : Alarm} (nodup : a.startOrder.Nodup)
    (order : ∀ e : Fin 8, e ∈ a.startOrder ↔ a.records[e] ≠ none) {e : Fin 8} (shared : 4 ≤ e.val)
    (taken : a.records[e] ≠ none) (lowest : ∀ f : Fin 8, 4 ≤ f.val → f ≠ e → a.above f e) : a.displaceable = some e := by
  have mem (f : Fin 8) : f ∈ a.ranked (a.startOrder.filter
      (fun e => sharedEntries.contains e && (a.records[e]).isSome)) ↔ 4 ≤ f.val ∧ a.records[f] ≠ none := by
    rw [mem_ranked, List.mem_filter, order f, Bool.and_eq_true, List.contains_iff_mem, mem_sharedEntries,
      Option.isSome_iff_ne_none]
    tauto
  refine getLast_eq_some above_asymm (ranked_above nodup _ fun f inside _ => (order f).mp inside)
    ((mem e).mpr ⟨shared, taken⟩) fun f inside other => lowest f ((mem f).mp inside).1 other

section Start

variable {s : State} (origin : NodeAddr) (group : Fin 8) (cls : AlarmClass) (pattern : Fin 8) {e : Fin 8}

theorem startRemote_free (free : s.alarm.freeShared = some e) : s.startRemote origin group cls pattern =
    s.recordStarted e (newRecord (.remote origin group) cls group pattern none 4096 false) := by
  unfold State.startRemote
  rw [free]
  exact startRecord_eq _ _ _

theorem startRemote_full {r : AlarmRec} (full : s.alarm.freeShared = none) (lowest : s.alarm.displaceable = some e)
    (found : s.alarm.records[e] = some r) : s.startRemote origin group cls pattern =
      if r.cls.rank < cls.rank then
        (s.recordEnded e r 5).recordStarted e (newRecord (.remote origin group) cls group pattern none 4096 false)
      else s := by
  unfold State.startRemote
  have ended : s.endRecord e alarmDisplaced = s.recordEnded e r 5 := endRecord_eq s e r found 5
  rw [full, lowest]
  simp only [rank_of_record found, startRecord_eq, ended]

end Start

/-- A displacement posts ALARM ENDED, and after it ALARM BEGUN or an overflow. -/
theorem displaced_events (s : State) (e : Fin 8) (r q : AlarmRec) : ∃ l : List EventRec,
    ((s.recordEnded e r 5).recordStarted e q).ctl.events = (s.withEvent .alarmEnded e.val 5).ctl.events ++ l ∧
    ({ kind := .alarmBegun, stamp := s.ring.cycleNumber.extractLsb' 9 7, subject := word e.val
       detail := BitVec.ofNat 4 q.cls.rank } ∈ l ∨ ((s.recordEnded e r 5).recordStarted e q).ctl.overflow = true) := by
  obtain ⟨before, hb⟩ := recordEnded_events s e r 5
  obtain ⟨after, ha⟩ := recordStarted_events (s.recordEnded e r 5) e q
  by_cases room : (s.recordEnded e r 5).ctl.events.length < 16
  · have begun : ((s.recordEnded e r 5).withEvent .alarmBegun e.val q.cls.rank).ctl.events =
        (s.recordEnded e r 5).ctl.events ++ [{
          kind := .alarmBegun, stamp := s.ring.cycleNumber.extractLsb' 9 7, subject := word e.val
          detail := BitVec.ofNat 4 q.cls.rank }] := by
      rw [withEvent_room room, (recordEnded_moved s e r 5).number]
    rw [begun, ← hb, List.append_assoc, List.append_assoc] at ha
    exact ⟨_, ha.symm, .inl (by simp)⟩
  · have kept : ((s.recordEnded e r 5).withEvent .alarmBegun e.val q.cls.rank).ctl.events =
        (s.recordEnded e r 5).ctl.events := (withEvent_full room _ _ _).1
    rw [kept, ← hb, List.append_assoc] at ha
    exact ⟨_, ha.symm, .inr (recordStarted_overflow room e q)⟩

end Sys2Proof.Machine

open Sys2Proof Sys2Proof.Machine

/-- Settles O19: an accepted word refreshes, ends, starts or displaces by its kind and by the record it names. -/
theorem alertWordsMoveRemoteRecords : Obligations.AlertWordsMoveRemoteRecords := by
  intro s w cls alarmOk locked a kind origin group pattern rank check kinds nonzero foreign mine fresh started
  obtain ⟨nodup, order, -, -, -⟩ := alarmOk
  have accepted := (alertAccepted_iff s w).mpr ⟨check, kinds, nonzero, foreign⟩
  obtain ⟨f, arrival⟩ := alertWordArrival_accepted locked accepted
  have cls_eq := alertClass_eq rank
  obtain ⟨v, word_in⟩ : ∃ v, v = s.alertWordIn w := ⟨_, rfl⟩
  rw [← word_in] at arrival
  refine ⟨_, congrArg Host.Outcome.next arrival, ?_⟩
  intro leaves
  refine ⟨fun e r found own lowest => ⟨fun on => ?_, fun off => ?_⟩, fun absent => ⟨fun off => ?_, fun on => ⟨?_, ?_⟩⟩⟩
  · have arrived := word_in.trans (alertWordIn_refresh (remoteEntry_some own lowest) found on)
    rw [cls_eq] at arrived
    have same := refresh_sameRecords s e r cls pattern
    subst arrived
    refine ⟨rfl, same.records, same.startOrder, fun i g g' held entry still entry' => ?_⟩
    have here := refreshed_generator (r := r) (cls := cls) (pattern := pattern) held entry
    refine ⟨fun keeps => ?_, fun changes => ?_⟩
    · rw [if_neg (not_not.mpr keeps)] at here
      exact refresh_holder here still (entry'.trans entry.symm)
    · rw [if_pos changes] at here
      exact refresh_holder here still entry'
  · have arrived := word_in.trans (alertWordIn_off (remoteEntry_some own lowest) found off)
    have moved := recordEnded_moved s e r 3
    subst arrived
    exact ⟨rfl, moved.alarm.records, moved.alarm.startOrder, fun _ => recordEnded_events s e r 3⟩
  · have arrived := word_in.trans (alertWordIn_ignored ((remoteEntry_none_iff _ _ _).mpr absent) off)
    subst arrived
    rfl
  · intro e shared free lowest
    have arrived := word_in.trans (alertWordIn_start ((remoteEntry_none_iff _ _ _).mpr absent) on)
    rw [startRemote_free _ _ _ _ (freeShared_some shared free lowest), cls_eq] at arrived
    have moved := recordStarted_moved s e fresh
    subst arrived
    exact ⟨rfl, ⟨moved.alarm.records, moved.alarm.startOrder⟩, recordStarted_sendList s e fresh,
      fun _ => recordStarted_events s e fresh⟩
  · intro e r shared found full lowest
    have arrived := word_in.trans (alertWordIn_start ((remoteEntry_none_iff _ _ _).mpr absent) on)
    rw [startRemote_full _ _ _ _ ((freeShared_none_iff _).mpr full)
      (displaceable_eq nodup order shared (full e shared) lowest) found, cls_eq] at arrived
    refine ⟨fun low => ?_, fun high => ?_⟩
    · rw [if_neg (not_lt.mpr low)] at arrived
      subst arrived
      rfl
    · rw [if_pos high] at arrived
      have ended := recordEnded_moved s e r 5
      have moved := recordStarted_moved (s.recordEnded e r 5) e fresh
      have list := (recordStarted_sendList (s.recordEnded e r 5) e fresh).trans (recordEnded_sendList s e r 5)
      subst arrived
      refine ⟨rfl, ⟨?_, ?_⟩, fun quiet => list.trans (if_neg (Bool.eq_false_iff.mp quiet)),
        fun loud => list.trans (if_pos loud), fun _ => displaced_events s e r fresh⟩
      · refine moved.alarm.records.trans ?_
        change put (s.recordEnded e r 5).alarm.records e (some fresh) = _
        rw [ended.alarm.records]
        exact put_put _ _ _ _
      · refine moved.alarm.startOrder.trans ?_
        change (s.recordEnded e r 5).alarm.startOrder.filter (· != e) ++ [e] = _
        rw [ended.alarm.startOrder]
        exact congrArg (· ++ [e]) filter_ne_filter

end

section
/-! What the events of a period leave of a TAKE record that is not crossfading and of the poll slot, and the TAKE record
through a period. -/

namespace Sys2Proof.Machine

/-! ### Events leave the TAKE record and the poll slot -/

/-- The TAKE record, but for the end of a crossfade, and the poll in progress are as they were. -/
structure Quiet (s t : State) : Prop where
  scene : s.scene.state ≠ .crossfading → t.scene = s.scene
  poll : t.icom.poll = s.icom.poll
  slotTime : t.icom.slotTime = s.icom.slotTime

theorem Quiet.refl (s : State) : Quiet s s := ⟨fun _ => rfl, rfl, rfl⟩

theorem Quiet.trans {s t u : State} (h : Quiet s t) (k : Quiet t u) : Quiet s u where
  scene := fun still => (k.scene (by rwa [h.scene still])).trans (h.scene still)
  poll := k.poll.trans h.poll
  slotTime := k.slotTime.trans h.slotTime

theorem Quiet.of_eq {s t : State} (scene : t.scene = s.scene) (icom : t.icom = s.icom) : Quiet s t :=
  ⟨fun _ => scene, by rw [icom], by rw [icom]⟩

/-- A step that may be left out. -/
theorem Quiet.ite {s t u : State} {c : Prop} [Decidable c] (h : Quiet s t) (k : Quiet s u) :
    Quiet s (if c then t else u) := by
  split
  · exact h
  · exact k

theorem PagesFrame.quiet {s t : State} (h : PagesFrame s t) : Quiet s t := .of_eq h.scene h.icom

theorem post_quiet (s : State) (k : EventKind) (n : Word16) (d : BitVec 4) : Quiet s (s.post k n d) := .of_eq rfl rfl

theorem setIcom_quiet (s : State) {x : Intercom} (poll : x.poll = s.icom.poll) (slot : x.slotTime = s.icom.slotTime) :
    Quiet s (s.setIcom x) := ⟨fun _ => rfl, poll, slot⟩

theorem updateCall_quiet (s : State) (id : CallId) (f : Call → Call) : Quiet s (s.updateCall id f) :=
  setIcom_quiet s rfl rfl

theorem setCue_quiet (s : State) (p : Fin 32) (n : Nat) : Quiet s (s.setCue p n) := setIcom_quiet s rfl rfl

theorem forEach_quiet {n : Nat} {f : Fin n → State → State} (h : ∀ i s, Quiet s (f i s)) (s : State) :
    Quiet s (forEach n f s) := forEach_keeps Quiet.refl Quiet.trans n f h s

theorem foldl_quiet {α : Type} {f : State → α → State} (h : ∀ s x, Quiet s (f s x)) (l : List α) (s : State) :
    Quiet s (l.foldl f s) := foldl_keeps Quiet.refl Quiet.trans f h l s

theorem HoldsOnly.quiet {s t : State} (h : HoldsOnly s t) : Quiet s t := by
  rw [h.rest]
  exact ⟨fun _ => rfl, rfl, rfl⟩

theorem recoverage_quiet (s : State) (before : Alarm) : Quiet s (s.recoverage before) := by
  rw [recoverage_eq]
  exact .ite (.of_eq rfl rfl)
    ((Quiet.of_eq (s := s) (t := s.setAlarm s.alarm.recompute) rfl rfl).trans
      ((handScheduler_pagesFrame _).quiet.trans (handIntercom_holdsOnly _).quiet))

theorem announced_quiet (s : State) (k : EventKind) (n : Word16) (d : BitVec 4) (e : Fin 8) (r : AlarmRec) (on : Bool) :
    Quiet s (s.announced k n d e r on) := .ite (.of_eq rfl rfl) (.of_eq rfl rfl)

theorem startRecord_quiet (s : State) (e : Fin 8) (r : AlarmRec) : Quiet s (s.startRecord e r) := by
  have written : Quiet s (s.setAlarm (s.alarm.started e r)) := .of_eq rfl rfl
  exact (written.trans (announced_quiet _ .alarmBegun (BitVec.ofNat 16 e.val) (BitVec.ofNat 4 r.cls.rank) e r true)).trans
    (recoverage_quiet _ s.alarm)

theorem endRecord_quiet (s : State) (e : Fin 8) (cause : BitVec 4) : Quiet s (s.endRecord e cause) := by
  cases found : s.alarm.records[e] with
  | none =>
    rw [endRecord_free found]
    exact .refl s
  | some r =>
    have written : Quiet s (s.setAlarm (s.alarm.ended e)) := .of_eq rfl rfl
    have announced := written.trans (announced_quiet _ .alarmEnded (BitVec.ofNat 16 e.val) cause e r false)
    unfold State.endRecord
    rw [found]
    exact .ite (announced.trans (recoverage_quiet _ _)) announced

theorem endCall_quiet (s : State) (id : CallId) (cause : BitVec 4) : Quiet s (s.endCall id cause) := by
  rw [(endCall_callsFrame s id cause).rest]
  exact ⟨fun _ => rfl, rfl, rfl⟩

theorem createCall_quiet (s : State) (parties : CallParties) (emergency : Bool) (headRef : Word16) :
    Quiet s (s.createCall parties emergency headRef) :=
  (setIcom_quiet s (x := { s.icom with
    calls := insertCall (newCall s.nextCallId parties emergency headRef) s.icom.calls
    lastCall := (newCall s.nextCallId parties emergency headRef).id }) rfl rfl).trans (foldl_quiet (fun _ _ => setCue_quiet _ _ _) _ _)

theorem createTrunkOut_quiet (s : State) (p : Fin 32) (n : DirNumber) (emergency : Bool) :
    Quiet s (s.createTrunkOut p n emergency) := (createCall_quiet _ _ _ _).trans (post_quiet _ _ _ _)

theorem endPage_quiet (s : State) (id : PageId) (cause : BitVec 4) : Quiet s (s.endPage id cause) :=
  (endPage_pagesFrame s id cause).quiet

/-! ### Key events -/

theorem onKey_quiet (s : State) (p : Fin 32) (k : Key) {act : Station → State → State}
    (h : ∀ e s, Quiet s (act e s)) : Quiet s (s.onKey p k act) := by
  have taken (l : List (Fin 32 × Key)) : Quiet s (s.setIcom { s.icom with keys := l }) := setIcom_quiet s rfl rfl
  unfold State.onKey
  split
  · refine .ite ?_ (.refl s)
    dsimp only
    split
    · exact (taken _).trans (h _ _)
    · exact taken _
  · exact .refl s

theorem dial_quiet (s : State) (p : Fin 32) (n : DirNumber) : Quiet s (s.dial p n) := by
  unfold State.dial
  refine .ite (setCue_quiet _ _ _) ?_
  split
  · exact .ite (setCue_quiet _ _ _) (.ite (createCall_quiet _ _ _ _) (setCue_quiet _ _ _))
  · exact createTrunkOut_quiet _ _ _ _

theorem dialEmergency_quiet (s : State) (p : Fin 32) (n : DirNumber) : Quiet s (s.dialEmergency p n) := by
  unfold State.dialEmergency
  split
  · refine .ite (setCue_quiet _ _ _) ?_
    split
    · exact setCue_quiet _ _ _
    · exact .ite (setCue_quiet _ _ _) (createCall_quiet _ _ _ _)
    · exact .ite (setCue_quiet _ _ _) ((endCall_quiet _ _ _).trans (createCall_quiet _ _ _ _))
    · exact setCue_quiet _ _ _
  · exact .ite (setCue_quiet _ _ _) (createTrunkOut_quiet _ _ _ _)

theorem answerCall_quiet (s : State) (p : Fin 32) (c : Call) : Quiet s (s.answerCall p c) := by
  unfold State.answerCall
  split
  · exact (setCue_quiet s p 0).trans (updateCall_quiet _ _ _)
  · exact ((setCue_quiet s p 0).trans (updateCall_quiet _ _ _)).trans (post_quiet _ _ _ _)

theorem releaseStationPage_quiet (s : State) (p : Fin 32) : Quiet s (s.releaseStationPage p) := by
  unfold State.releaseStationPage
  split
  · exact endPage_quiet _ _ _
  · exact .refl s

theorem volumeKey_quiet (s : State) (p : Fin 32) (k : Key) (quieter : Bool) : Quiet s (volumeKey p k quieter s) := by
  refine onKey_quiet s p _ fun e u => ?_
  split
  · exact .refl u
  · exact .of_eq rfl rfl
  · exact .refl u

theorem handleKey_quiet (p : Fin 32) (key : Key) (s : State) : Quiet s (handleKey p key s) := by
  unfold handleKey
  split
  · refine onKey_quiet s p _ fun _ u => .ite (dial_quiet u p _) (.refl u)
  · refine onKey_quiet s p _ fun _ u => ?_
    split
    · exact answerCall_quiet u p _
    · exact .refl u
  · refine onKey_quiet s p _ fun _ u => ?_
    split
    · exact .refl u
    · exact setCue_quiet _ _ _
    · exact endCall_quiet _ _ _
    · exact .refl u
  · exact onKey_quiet s p _ fun _ u => .ite (dialEmergency_quiet u p _) (.refl u)
  · refine onKey_quiet s p _ fun e u => ?_
    split
    · exact .refl u
    · exact .ite (.ite (setCue_quiet _ _ _) (.refl u)) ((setCue_quiet u p 0).trans (.of_eq rfl rfl))
  · refine onKey_quiet s p _ fun e u => ?_
    split
    · exact .refl u
    · exact (setCue_quiet u p 0).trans (releaseStationPage_quiet _ _)
  · exact volumeKey_quiet s p _ _
  · exact volumeKey_quiet s p _ _

/-! ### The events of each unit -/

theorem chimeEnd_quiet (p : Fin 4) (s : State) : Quiet s (chimeEnd p s) := by
  unfold chimeEnd
  refine .ite ?_ (.refl s)
  dsimp only
  split
  · exact .ite (.of_eq rfl rfl) (.of_eq rfl rfl)
  · exact .of_eq rfl rfl

theorem endLiveChime_quiet (s : State) (p : Page) : Quiet s (s.endLiveChime p) :=
  ((freePage_pagesOnly s p.id).toPagesFrame.quiet.trans
    (.of_eq (t := (s.freePage p.id).updatePage p.id (fun p => { p with phase := .audio, sourceLoss := 0 })) rfl rfl)).trans
    (duePass_pagesFrame _).quiet

theorem endRepeat_quiet (s : State) (p : Page) : Quiet s (s.endRepeat p) := by
  unfold State.endRepeat
  exact .ite (endPage_quiet _ _ _) (.of_eq rfl rfl)

theorem sequenceEnd_quiet (p : Fin 4) (s : State) : Quiet s (sequenceEnd p s) := by
  have taken (x : Player) : Quiet s (s.setPlayer p x) := .of_eq rfl rfl
  unfold sequenceEnd
  refine .ite ?_ (.refl s)
  dsimp only
  split
  · exact .ite ((taken _).trans (endRepeat_quiet _ _)) ((taken _).trans (endLiveChime_quiet _ _))
  · exact taken _

theorem closeClips_quiet (s : State) : Quiet s s.closeClips := by
  have full (u : State) : Quiet u (captureFull u) := .ite (.of_eq rfl rfl) (.refl u)
  have ends (u : State) : Quiet u (captureEnd u) := .ite (.of_eq rfl rfl) (.refl u)
  have done (u : State) : Quiet u (captureDone u) := .ite (.of_eq rfl rfl) (.refl u)
  have primed (p : Fin 4) (u : State) : Quiet u (playerPrimed p u) := .ite (.of_eq rfl rfl) (.refl u)
  have burst : Quiet s (burstDone s) := by
    unfold burstDone
    split
    · exact .ite (.of_eq rfl rfl) (.refl s)
    · exact .refl s
  unfold State.closeClips
  exact (((((burst.trans (forEach_quiet primed _)).trans (full _)).trans (ends _)).trans (done _)).trans
    (forEach_quiet chimeEnd_quiet _)).trans (forEach_quiet sequenceEnd_quiet _)

theorem takeDone_quiet (s : State) : Quiet s (takeDone s) := by
  unfold takeDone
  refine ⟨fun still => ?_, ?_, ?_⟩
  · rw [if_neg fun due => still due.1]
  · split <;> rfl
  · split <;> rfl

theorem closeFeeds_quiet (s : State) : Quiet s s.closeFeeds := by
  have change (f : Fin 4) (u : State) : Quiet u (feedChangeover f u) := by
    unfold feedChangeover
    split
    · exact .of_eq rfl rfl
    · exact .refl u
  have lost (f : Fin 4) (u : State) : Quiet u (feedBothLost f u) := .ite (.of_eq rfl rfl) (.refl u)
  have revert (f : Fin 4) (u : State) : Quiet u (feedAutoRevert f u) := .ite (.of_eq rfl rfl) (.refl u)
  have block (f : Fin 4) (u : State) : Quiet u (mismatchBlockEnd f u) :=
    .ite (.ite (.of_eq rfl rfl) (.of_eq rfl rfl)) (.refl u)
  unfold State.closeFeeds
  exact (forEach_quiet (fun f u => (((change f u).trans (lost f _)).trans (revert f _)).trans (block f _)) s).trans
    (takeDone_quiet _)

theorem closeAlarms_quiet (s : State) : Quiet s s.closeAlarms := by
  have line (u : State) (k : Fin 4) (c : Contact) : Quiet u (u.setContact k c) := .of_eq rfl rfl
  have activate (k : Fin 4) (u : State) : Quiet u (contactActivate k u) :=
    .ite ((line u _ _).trans (startRecord_quiet _ _ _)) (.refl u)
  have clear (k : Fin 4) (u : State) : Quiet u (contactClear k u) :=
    .ite ((line u _ _).trans (endRecord_quiet _ _ _)) (.refl u)
  have refresh (e : Fin 8) (u : State) : Quiet u (broadcastRefresh e u) := by
    unfold broadcastRefresh
    split
    · exact .ite (.of_eq rfl rfl) (.refl u)
    · exact .refl u
  have unconfirmed (e : Fin 8) (u : State) : Quiet u (notConfirmed e u) := by
    unfold notConfirmed
    split
    · exact .ite (endRecord_quiet _ _ _) (.refl u)
    · exact .refl u
  have step (i : Fin 4) (u : State) : Quiet u (generatorStepEnd i u) := by
    unfold generatorStepEnd
    split
    · exact .ite (.of_eq rfl rfl) (.refl u)
    · exact .refl u
  unfold State.closeAlarms
  exact ((((forEach_quiet activate _).trans (forEach_quiet clear _)).trans (forEach_quiet refresh _)).trans
    (forEach_quiet unconfirmed _)).trans (forEach_quiet step _)

theorem loseStationPage_quiet (s : State) (p : Fin 32) : Quiet s (s.loseStationPage p) := by
  unfold State.loseStationPage
  split
  · exact endPage_quiet _ _ _
  · exact .refl s

theorem stationLost_quiet (p : Fin 32) (s : State) : Quiet s (stationLost p s) := by
  unfold stationLost
  dsimp only
  refine .ite ?_ (.refl s)
  have absent : Quiet s (s.setIcom { s.icom with
      presence := put s.icom.presence p { s.icom.presence[p] with present := false } }) := setIcom_quiet s rfl rfl
  have gone := absent.trans (post_quiet _ .stationLost (BitVec.ofNat 16 p.val) 0)
  have rest {u : State} (h : Quiet s u) : Quiet s (match u.icom.table[p] with
      | some _ => (u.setCue p 0).loseStationPage p
      | none => u) := by
    split
    · exact (h.trans (setCue_quiet u p 0)).trans (loseStationPage_quiet _ _)
    · exact h
  cases s.callOf p with
  | none => exact rest gone
  | some c => exact rest (gone.trans (endCall_quiet _ c.id callStationLost))

theorem closeCalls_quiet (s : State) : Quiet s s.closeCalls := by
  have over_slot : Quiet s s.slotOver := by
    unfold State.slotOver
    split
    · exact .ite (.ite (setIcom_quiet s rfl rfl) (.refl s)) (.refl s)
    · exact .refl s
  have cue (p : Fin 32) (u : State) : Quiet u (cueTimerExpiry p u) := by
    unfold cueTimerExpiry
    split
    · exact setIcom_quiet u rfl rfl
    · exact .refl u
  have unanswered (id : CallId) (u : State) : Quiet u (callNoAnswer id u) := by
    unfold callNoAnswer
    repeat' split
    all_goals first | exact .refl u | exact endCall_quiet _ _ _
  have heldLong (id : CallId) (u : State) : Quiet u (callHeldTooLong id u) := by
    unfold callHeldTooLong
    repeat' split
    all_goals first | exact .refl u | exact endCall_quiet _ _ _
  refine Quiet.trans (t := forEach 32 cueTimerExpiry (forEach 32 stationLost s.slotOver).leftKeys) ?_
    (foldl_quiet (fun u id => (unanswered id u).trans (heldLong id _)) _ _)
  exact ((over_slot.trans (forEach_quiet (fun p u => stationLost_quiet p u) _)).trans
    (foldl_quiet (f := fun s (x : Fin 32 × Key) => handleKey x.1 x.2 s) (fun u x => handleKey_quiet x.1 x.2 u) _ _)).trans
    (forEach_quiet cue _)

theorem gapEnd_quiet (id : PageId) (s : State) : Quiet s (gapEnd id s) := by
  unfold gapEnd
  split
  · refine .ite ?_ (.refl s)
    exact (((startRepeat_pagesOnly s id).trans (takeZones_pagesOnly _ _ _)).trans
      (updatePage_pagesOnly _ id (fun q => { q with joining := 0 }) (fun _ => rfl) (fun _ => rfl))).toPagesFrame.quiet.trans (duePasses_pagesFrame _ _).quiet
  · exact .refl s

theorem closePages_quiet (s : State) : Quiet s s.closePages := by
  have played (id : PageId) (u : State) : Quiet u (pageTimedOut id u) := by
    unfold pageTimedOut
    repeat' split
    all_goals first | exact .refl u | exact endPage_quiet _ _ _
  have lost (id : PageId) (u : State) : Quiet u (pageSourceLost id u) := by
    unfold pageSourceLost
    repeat' split
    all_goals first | exact .refl u | exact endPage_quiet _ _ _
  refine Quiet.trans (t := s.pageIds.foldl _ s) (foldl_quiet (fun u id => ?_) _ _) (settle_pagesFrame _).quiet
  exact (((gapEnd_quiet id u).trans (played id _)).trans (lost id _)).trans (pageExpired_pagesFrame id _).quiet

/-- The events that follow the grant passes leave the pages too. -/
theorem closeRest_quiet (s : State) : Quiet s s.closeRest ∧ s.closeRest.pages = s.pages := by
  let R (s t : State) : Prop := Quiet s t ∧ t.pages = s.pages
  have refl (s : State) : R s s := ⟨.refl s, rfl⟩
  have trans {s t u : State} (h : R s t) (k : R t u) : R s u := ⟨h.1.trans k.1, k.2.trans h.2⟩
  have lines (u : State) (l : Lines) : R u (u.setLines l) := ⟨.of_eq rfl rfl, rfl⟩
  have line (u : State) (c : Fin 32) (e : Option LineEvent) : R u (u.postLine c e) := by
    unfold State.postLine
    split
    · exact refl u
    · exact ⟨.of_eq rfl rfl, rfl⟩
    · exact ⟨.of_eq rfl rfl, rfl⟩
  have step : R s (scanStepEnd s) := by
    unfold scanStepEnd
    split
    · split
      · unfold State.classifyStep
        split
        · exact lines _ _
        · exact trans (trans (lines _ _) (line _ _ _)) (lines _ _)
      · exact refl s
    · exact refl s
  have rest (u : State) : R u (scanRestEnd u) := by
    unfold scanRestEnd
    repeat' split
    all_goals first | exact refl u | exact lines _ _
  have blocks (u : State) : R u (forEach 24 trackerBlockEnd u) := forEach_keeps refl trans 24 _ (fun z v => by
    unfold trackerBlockEnd
    dsimp only
    split
    · exact ⟨.of_eq rfl rfl, rfl⟩
    · exact refl v) u
  have clashes (u : State) : R u (forEach 64 slotClash u) := forEach_keeps refl trans 64 _ (fun z v => by
    unfold slotClash
    split
    · split
      · exact ⟨.of_eq rfl rfl, rfl⟩
      · exact refl v
    · exact refl v) u
  have send (u : State) : R u (alertSend u) := by
    unfold alertSend
    repeat' split
    all_goals first | exact refl u | exact ⟨.of_eq rfl rfl, rfl⟩
  exact trans (trans (trans (trans step (rest _)) (blocks _)) (clashes _)) (send _)

/-- Every event of a period up to the reading of the poll's cue. -/
theorem closed_quiet (s : State) :
    Quiet s s.closeClips.closeFeeds.closeAlarms.closeCalls.closePages.closeRest :=
  (((((closeClips_quiet s).trans (closeFeeds_quiet _)).trans (closeAlarms_quiet _)).trans (closeCalls_quiet _)).trans
    (closePages_quiet _)).trans (closeRest_quiet _).1

theorem pollCue_scene (s : State) : s.pollCue.scene = s.scene := by
  unfold State.pollCue
  split <;> rfl

theorem applySettings_scene (s : State) : s.applySettings.scene = s.scene := by
  unfold State.applySettings
  split <;> rfl

/-- A TAKE record that is not crossfading is the same after the close of a period. -/
theorem closePeriod_scene {s : State} (h : s.scene.state ≠ .crossfading) : (closePeriod s).scene = s.scene := by
  unfold closePeriod
  rw [applySettings_scene, pollCue_scene]
  exact (closed_quiet s).scene h

end Sys2Proof.Machine
end

section
/-! A TAKE: what is compared and lost at an arrival, its start, its steps through a period and its completion. -/

namespace Sys2Proof.Machine

/-! ### The period -/

theorem takeStart_scene (s : State) : (takeStart s).scene =
    if s.scene.state = .waiting ∧ s.scene.start = .now then
      if s.scene.length = 0 then { s.scene with
        active := s.scene.active.other, state := .idle, target := none, step := 0, start := .no, lastDone := false
        handed := s.scene.handed ||| s.changedModes }
      else { s.scene with
        active := s.scene.active.other, state := .crossfading, step := 1, start := .no
        handed := s.scene.handed ||| s.changedModes }
    else s.scene := by
  unfold takeStart
  by_cases due : s.scene.state = .waiting ∧ s.scene.start = .now
  · rw [if_pos due, if_pos due]
    by_cases zero : s.scene.length = 0
    · rw [if_pos zero]
      exact congrArg State.scene (if_pos zero)
    · rw [if_neg zero]
      exact congrArg State.scene (if_neg zero)
  · rw [if_neg due, if_neg due]

theorem begun_scene {s u : State} (hu : u = if s.ring.arrived.isSome then s else closePeriod s) :
    s.begun.scene = (takeStart u).scene := by
  obtain ⟨eq, idle, -⟩ := begun_blocks s u _ hu rfl
  have scene := (begin_blocks _ _ eq).2.1
  have changed : (forEach 4 (fun p s => s.idlePlayer p) u).changedModes = u.changedModes := by
    rw [idle.rest]
    rfl
  have same : (forEach 4 (fun p s => s.idlePlayer p) u).scene = u.scene := by rw [idle.rest]
  rw [scene, takeStart_scene, takeStart_scene, changed, same]

theorem cyclePeriod_scene (frame : Vector RawSample 32) (contacts : BitVec 4) (s : State) :
    (cyclePeriod frame contacts s).scene = { s.begun.scene.advance with handed := 0 } := by
  rw [cyclePeriod_def frame contacts s _ _ rfl rfl]
  obtain ⟨-, -, -, finished, -⟩ := finish_blocks
    ((((s.begun.prepare frame).send (s.begun.prepare frame).compute).advance).tick contacts)
  obtain ⟨-, -, -, ticked, -⟩ :=
    tick_blocks ((s.begun.prepare frame).send (s.begun.prepare frame).compute).advance contacts
  have advanced := (advance_advanceFrame ((s.begun.prepare frame).send (s.begun.prepare frame).compute)).scene
  obtain ⟨-, -, -, sent, -⟩ := send_blocks (s.begun.prepare frame) (s.begun.prepare frame).compute
  obtain ⟨-, -, -, -, -, prepared, -⟩ := prepare_more s.begun frame
  rw [finished, ticked, advanced, sent, prepared]

/-- The TAKE record after the computation of a period, field by field. -/
theorem advance_eq (c : Scene) : c.advance = { c with
    step := if c.state = .crossfading ∧ c.step < c.length then c.step + 1 else c.step
    lastDone := c.lastDone || (c.state == .crossfading && decide (c.length ≤ c.step))
    start := if c.state = .waiting ∧ c.start = .next then .now else c.start } := by
  obtain ⟨active, state, length, target, step, start, lastDone, handed⟩ := c
  cases state with
  | idle => simp [Scene.advance]
  | waiting =>
    by_cases next : start = .next
    · simp [Scene.advance, next]
    · simp [Scene.advance, next]
  | crossfading =>
    by_cases more : step < length
    · simp [Scene.advance, more]
    · simp [Scene.advance, more, not_lt.mp more]

/-! ### The start and the end -/

theorem changedModes_iff (s : State) (z : Fin 24) : s.changedModes.getLsbD z.val = true ↔
    (s.activeBank.fields[z]).mode ≠ (s.editBank.fields[z]).mode := by
  rw [State.changedModes, zonesWhere_getLsbD, bne_iff_ne]

theorem bankCode_eq (bank : BankId) : bank.code = if bank = .a then 0 else 1 := by
  cases bank <;> rfl

theorem completeTake_eq (s : State) : s.completeTake = State.withEvent { s with scene := { s.scene with
    state := .idle, target := none, step := 0, start := .no, lastDone := false } } .takeDone
      (if s.scene.active = .a then 0 else 1) 0 := by
  have posted := post_eq { s with scene := { s.scene with
    state := .idle, target := none, step := 0, start := .no, lastDone := false } } .takeDone s.scene.active.code 0
  rw [bankCode_eq s.scene.active] at posted
  rw [← posted, ← bankCode_eq s.scene.active]
  rfl

theorem takeStart_due {s : State} (waiting : s.scene.state = .waiting) (due : s.scene.start = .now) :
    takeStart s =
      (let t := s.setScene { s.scene with
        active := s.scene.active.other, state := .crossfading, step := 1, start := .no
        handed := s.scene.handed ||| s.changedModes }
       if s.scene.length = 0 then t.completeTake else t) :=
  if_pos ⟨waiting, due⟩

/-! ### The arrival -/

theorem countClashes_scene (s : State) (v : Vector RawSample 64) : (s.countClashes v).scene = s.scene := rfl

theorem captureRingLost_scene (s : State) : s.captureRingLost.scene = s.scene := by
  unfold State.captureRingLost
  split <;> rfl

/-- Of the changes of the receiver, leaving LOCKED alone changes the TAKE record. -/
theorem rxChanged_scene (s : State) (before : RxState) : (s.rxChanged before).scene =
    if before = .locked ∧ s.ring.rx = .suspect then s.takeRingLost.scene else s.scene := by
  have hunt : s.enterHunt.scene = s.scene := by
    have ended := (endCalls_callsFrame (s.post .ringLost 0 0) Call.trunk callRingLost).rest
    exact (congrArg State.scene ended :)
  unfold State.rxChanged
  split
  · rename_i now
    rw [if_pos ⟨rfl, now⟩, State.leaveLocked]
    have same : s.clearBuffer.captureRingLost.scene = s.scene := captureRingLost_scene _
    unfold State.takeRingLost
    rw [same]
    split
    · rfl
    · exact same
  · rw [if_neg fun both => by cases both.1]
    exact hunt
  · rw [if_neg fun both => by cases both.1]
    rfl
  · rename_i other _ _
    rw [if_neg fun both => other both.1 both.2]

theorem afterMove_scene (s : State) (before : RxState) (c : RingCycle) : (s.afterMove before c).scene =
    if (s.rxChanged before).ring.rx = .locked then ((s.rxChanged before).compareTake c.number).scene
    else (s.rxChanged before).scene := by
  unfold State.afterMove
  dsimp only
  have heard : ((s.rxChanged before).countClashes c.slots).heard = true ↔ (s.rxChanged before).ring.rx = .locked :=
    beq_iff_eq
  have compare : (((s.rxChanged before).countClashes c.slots).compareTake c.number).scene =
      ((s.rxChanged before).compareTake c.number).scene := by
    unfold State.compareTake
    split
    · rw [if_pos ‹_›]
      rfl
    · rw [if_neg ‹_›]
      rfl
  split
  · rw [if_pos (heard.mp ‹_›), compare]
  · rw [if_neg (mt heard.mpr ‹_›)]
    rfl

theorem moved_suspect_iff {s : State} (align : Fin 1626) (c : RingCycle) :
    s.ring.rx = .locked ∧ (s.ring.moved align c).rx = .suspect ↔
      s.ring.rx = .locked ∧ (s.ring.moved align c).rx ≠ .locked := by
  refine and_congr_right fun locked => ?_
  rw [moved_rx]
  cases good : s.ring.good c with
  | true =>
    rw [receive_locked_good locked good]
    simp [locked]
  | false =>
    rw [receive_locked_bad locked good]
    simp

theorem takeRingLost_scene (s : State) : s.takeRingLost.scene =
    if s.scene.state = .waiting ∧ s.scene.start = .no then { s.scene with start := .next } else s.scene := by
  unfold State.takeRingLost
  split <;> rfl

theorem compareTake_scene (s : State) (n : BitVec 16) : (s.compareTake n).scene =
    if s.scene.state = .waiting ∧ s.scene.target = some n then { s.scene with start := .now } else s.scene := by
  unfold State.compareTake
  split <;> rfl

/-- The TAKE record after an arrival while it waits (R77). -/
theorem arrive_scene {s : State} (align : Fin 1626) (c : RingCycle) (waiting : s.scene.state = .waiting) :
    (s.arrive align c).scene = { s.scene with start :=
      if (s.arrive align c).ring.rx = .locked ∧ s.scene.target = some c.number then .now
      else if s.ring.rx = .locked ∧ (s.arrive align c).ring.rx ≠ .locked ∧ s.scene.start = .no then .next
      else s.scene.start } := by
  have rx : (s.arrive align c).ring.rx = (s.ring.moved align c).rx := by
    rw [arrive_eq, afterMove_ring]
    rfl
  obtain ⟨v, hv⟩ : ∃ v, v = (s.setRing (s.ring.moved align c)).rxChanged s.ring.rx := ⟨_, rfl⟩
  have vrx : v.ring.rx = (s.ring.moved align c).rx := by rw [hv, rxChanged_ring]; rfl
  have scene := rxChanged_scene (s.setRing (s.ring.moved align c)) s.ring.rx
  rw [← hv] at scene
  have compared : (s.arrive align c).scene =
      if v.ring.rx = .locked then (v.compareTake c.number).scene else v.scene := by
    rw [arrive_eq, hv]
    exact afterMove_scene _ _ _
  have sceneV : v.scene = { s.scene with start :=
      if s.ring.rx = .locked ∧ (s.ring.moved align c).rx ≠ .locked ∧ s.scene.start = .no then .next
      else s.scene.start } := by
    rw [scene]
    have left := moved_suspect_iff (s := s) align c
    by_cases leaves : s.ring.rx = .locked ∧ (s.ring.moved align c).rx ≠ .locked
    · rw [if_pos (show s.ring.rx = .locked ∧ (s.setRing (s.ring.moved align c)).ring.rx = .suspect from left.mpr leaves)]
      rw [takeRingLost_scene]
      by_cases idle : s.scene.start = .no
      · rw [if_pos (show (s.setRing (s.ring.moved align c)).scene.state = .waiting ∧
          (s.setRing (s.ring.moved align c)).scene.start = .no from ⟨waiting, idle⟩),
          if_pos ⟨leaves.1, leaves.2, idle⟩]
        rfl
      · rw [if_neg fun both => idle both.2, if_neg fun all => idle all.2.2]
        rfl
    · rw [if_neg (show ¬ (s.ring.rx = .locked ∧ (s.setRing (s.ring.moved align c)).ring.rx = .suspect) from
        mt left.mp leaves), if_neg fun all => leaves ⟨all.1, all.2.1⟩]
      rfl
  rw [compared, rx, vrx]
  by_cases locked : (s.ring.moved align c).rx = .locked
  · rw [if_pos locked]
    rw [compareTake_scene]
    have state : v.scene.state = .waiting := by rw [sceneV]; exact waiting
    have target : v.scene.target = s.scene.target := by rw [sceneV]
    by_cases due : s.scene.target = some c.number
    · rw [if_pos ⟨state, target.trans due⟩, if_pos ⟨locked, due⟩]
      exact congrArg (fun x : Scene => { x with start := .now }) sceneV
    · rw [if_neg fun both => due (target.symm.trans both.2), if_neg fun both => due both.2]
      exact sceneV
  · rw [if_neg locked, if_neg fun both => locked both.1]
    exact sceneV

end Sys2Proof.Machine

open Sys2Proof Sys2Proof.Machine

/-- Settles O29: the TAKE record's field equations at an arrival, at the start, through a period and at the end. -/
theorem takesStartAndComplete : Obligations.TakesStartAndComplete := by
  intro s bankNumber
  refine ⟨changedModes_iff s, fun align c reads waiting => ?_, fun waiting due long => ?_, fun waiting due zero => ?_,
    fun frame contacts => ?_, fun crossfading last => ?_⟩
  · refine ⟨_, cycleArrival_read reads, ?_⟩
    have scene := closePeriod_scene (s := s) (by rw [waiting]; decide)
    have rx := (closePeriod_kept s).rx
    rw [arrive_scene align c (by rw [scene]; exact waiting), scene, rx]
  · change Host.Outcome.next (takeStart s) = _
    rw [takeStart_due waiting due]
    exact congrArg Host.Outcome.next (if_neg (by omega))
  · change Host.Outcome.next (takeStart s) = _
    rw [takeStart_due waiting due]
    exact congrArg Host.Outcome.next ((if_pos zero).trans (completeTake_eq _))
  · intro u closing
    refine ⟨fun v started => ?_, _, rfl, ?_⟩
    · rw [← Host.Outcome.next.inj started]
      exact begun_scene rfl
    · rw [cyclePeriod_scene, advance_eq]
  · change Host.Outcome.next (takeDone s) = _
    exact congrArg Host.Outcome.next ((if_pos ⟨crossfading, last⟩).trans (completeTake_eq s))

end

section
/-! The arbiter and the bursts: what is read after a write, which requester is served, and what a finished burst does. -/

namespace Sys2Proof.Machine

/-! ### Clip memory -/

theorem memWriteAll_cons (m : List ClipCell) (c : ClipCell) (l : List ClipCell) :
    memWriteAll m (c :: l) = memWriteAll (memWrite m (c.1 % Config.clipMemoryWords) c.2) l := rfl

/-- An address that no cell of a burst names reads as it did. -/
theorem memRead_memWriteAll_other {m : List ClipCell} (wf : Memory.wf m = true) {cells : List ClipCell} {x : Nat}
    (small : ∀ y ∈ cells, y.1 < Config.clipMemoryWords) (other : ∀ y ∈ cells, y.1 ≠ x) :
    memRead (memWriteAll m cells) x = memRead m x := by
  induction cells generalizing m with
  | nil => rfl
  | cons c rest ih =>
    have inside : c.1 % Config.clipMemoryWords = c.1 := Nat.mod_eq_of_lt (small c List.mem_cons_self)
    rw [memWriteAll_cons, ih (memWrite_wf _ _ _ wf (Nat.mod_lt _ (by decide)))
      (fun y hy => small y (List.mem_cons_of_mem _ hy)) (fun y hy => other y (List.mem_cons_of_mem _ hy)),
      memRead_memWrite _ _ _ _ wf, inside, if_neg (other c List.mem_cons_self).symm]

/-- An address reads as the last word a burst writes there. -/
theorem memRead_memWriteAll_last {m : List ClipCell} (wf : Memory.wf m = true) {before after : List ClipCell} {x : Nat}
    {w : ClipWord} (small : ∀ y ∈ before ++ (x, w) :: after, y.1 < Config.clipMemoryWords)
    (last : ∀ y ∈ after, y.1 ≠ x) : memRead (memWriteAll m (before ++ (x, w) :: after)) x = w := by
  have split : memWriteAll m (before ++ (x, w) :: after) =
      memWriteAll (memWrite (memWriteAll m before) (x % Config.clipMemoryWords) w) after := List.foldl_append
  have inside : x % Config.clipMemoryWords = x :=
    Nat.mod_eq_of_lt (small (x, w) (List.mem_append_right _ List.mem_cons_self))
  have wf' := memWriteAll_wf before m wf
  rw [split, memRead_memWriteAll_other (memWrite_wf _ _ _ wf' (Nat.mod_lt _ (by decide)))
    (fun y hy => small y (List.mem_append_right _ (List.mem_cons_of_mem _ hy))) last, memRead_memWrite _ _ _ _ wf',
    inside, if_pos rfl]

/-! ### The clip write buffer -/

theorem cellsFrom_eq (a : Nat) (l : List ClipWord) : cellsFrom a l = l.mapIdx (fun n w => (a + n, w)) := by
  induction l generalizing a with
  | nil => rfl
  | cons w rest ih =>
    rw [cellsFrom, List.mapIdx_cons, ih]
    simp only [Nat.add_zero, Nat.add_assoc, Nat.add_comm 1]

theorem cellsFrom_find (a : Nat) (l : List ClipWord) (x : Nat) :
    ((cellsFrom a l).find? (fun c => c.1 == x)).map (·.2) = if a ≤ x then l[x - a]? else none := by
  induction l generalizing a with
  | nil => simp [cellsFrom]
  | cons w rest ih =>
    rw [cellsFrom, List.find?_cons]
    by_cases here : a = x
    · subst here
      simp
    · rw [show ((a, w).1 == x) = false from beq_eq_false_iff_ne.mpr here]
      simp only [ih]
      by_cases below : a ≤ x
      · have less : a + 1 ≤ x := by omega
        rw [if_pos less, if_pos below, show x - a = (x - (a + 1)) + 1 by omega, List.getElem?_cons_succ]
      · rw [if_neg below, if_neg (by omega)]

theorem readWord_buffered {c : Clips} {b : WriteBuffer} (held : c.writeBuffer = some b) {n : Nat} {w : ClipWord}
    (at_n : b.words[n]? = some w) : c.readWord (b.address + n) = w := by
  unfold Clips.readWord
  rw [held, Option.bind_some, cellsFrom_find, if_pos (Nat.le_add_right _ _), Nat.add_sub_cancel_left, at_n]

theorem readWord_memory {c : Clips} {x : Nat} (small : x < Config.clipMemoryWords)
    (outside : ∀ b : WriteBuffer, c.writeBuffer = some b → x < b.address ∨ b.address + b.words.length ≤ x) :
    c.readWord x = memRead c.memory x := by
  unfold Clips.readWord
  have none_held : c.writeBuffer.bind (fun b => ((cellsFrom b.address b.words).find? (fun y => y.1 == x)).map (·.2)) =
      none := by
    cases held : c.writeBuffer with
    | none => rfl
    | some b =>
      rw [Option.bind_some, cellsFrom_find]
      rcases outside b held with below | above
      · exact if_neg (by omega)
      · rw [if_pos (by omega), List.getElem?_eq_none (by omega)]
  rw [none_held, Nat.mod_eq_of_lt small]

/-! ### The arbiter -/

theorem asking_iff {c : Clips} (free : c.burst = none) (p : Fin 4) : c.asking p = true ↔
    (c.players[p]).fetch ≠ none ∧ (c.players[p]).releasing = false ∧
      (((c.players[p]).state = .priming ∧ (c.players[p]).fifo.length < 256) ∨
        ((c.players[p]).state = .playing ∧ (c.players[p]).fifo.length ≤ 128)) := by
  have own : c.outstanding p = false := by
    unfold Clips.outstanding
    rw [free]
  unfold Clips.asking
  dsimp only
  rw [own]
  generalize c.players[p] = x
  cases state : x.state with
  | idle => simp
  | priming => simp [Option.isSome_iff_ne_none, and_assoc]
  | playing => simp [Option.isSome_iff_ne_none, and_assoc]

/-- The player with the fewest words so far. -/
def Clips.fewer (c : Clips) (best : Option (Fin 4)) (p : Fin 4) : Option (Fin 4) :=
  match best with
  | none => some p
  | some q => if (c.players[p]).fifo.length < (c.players[q]).fifo.length then some p else some q

theorem chosenPlayer_eq (c : Clips) : c.chosenPlayer = ((indices 4).filter c.asking).foldl c.fewer none := rfl

theorem fewer_stays (c : Clips) {p : Fin 4} {l : List (Fin 4)}
    (h : ∀ q ∈ l, (c.players[p]).fifo.length ≤ (c.players[q]).fifo.length) : l.foldl c.fewer (some p) = some p := by
  induction l with
  | nil => rfl
  | cons q rest ih =>
    have first : c.fewer (some p) q = some p := if_neg (not_lt.mpr (h q List.mem_cons_self))
    rw [List.foldl_cons, first]
    exact ih fun r hr => h r (List.mem_cons_of_mem _ hr)

theorem fewer_mem (c : Clips) (l : List (Fin 4)) {q : Fin 4} {best : Option (Fin 4)}
    (h : l.foldl c.fewer best = some q) : best = some q ∨ q ∈ l := by
  induction l generalizing best with
  | nil => exact .inl h
  | cons r rest ih =>
    rcases ih h with first | later
    · unfold Clips.fewer at first
      split at first
      · exact .inr (List.mem_cons.mpr (.inl (Option.some.inj first).symm))
      · split at first
        · exact .inr (List.mem_cons.mpr (.inl (Option.some.inj first).symm))
        · exact .inl first
    · exact .inr (List.mem_cons_of_mem _ later)

theorem indices_ascend (n : Nat) : (indices n).Pairwise (· < ·) := by
  unfold indices
  exact List.pairwise_ofFn.mpr fun _ _ less => less

/-- The arbiter's player: the one with the fewest words, and of those the first (R102). -/
theorem chosenPlayer_some {c : Clips} {p : Fin 4} (asks : c.asking p = true)
    (fewest : ∀ q : Fin 4, c.asking q = true → q ≠ p →
      (c.players[p]).fifo.length < (c.players[q]).fifo.length ∨
        ((c.players[p]).fifo.length = (c.players[q]).fifo.length ∧ p < q)) : c.chosenPlayer = some p := by
  obtain ⟨before, after, split⟩ := List.append_of_mem (List.mem_filter.mpr ⟨mem_indices p, asks⟩)
  have asking {q : Fin 4} (mem : q ∈ before ++ p :: after) : c.asking q = true := by
    rw [← split] at mem
    exact (List.mem_filter.mp mem).2
  have ascend := (indices_ascend 4).filter c.asking
  rw [split, List.pairwise_append] at ascend
  obtain ⟨-, tail, below⟩ := ascend
  obtain ⟨above, -⟩ := List.pairwise_cons.mp tail
  rw [chosenPlayer_eq, split, List.foldl_append, List.foldl_cons]
  have taken : c.fewer (before.foldl c.fewer none) p = some p := by
    cases best : before.foldl c.fewer none with
    | none => rfl
    | some q =>
      have mem : q ∈ before := (fewer_mem c before best).resolve_left (by simp)
      have less : q < p := below q mem p List.mem_cons_self
      have fewer := fewest q (asking (List.mem_append_left _ mem)) less.ne
      exact if_pos (fewer.resolve_right fun same => absurd same.2 less.asymm)
  rw [taken]
  refine fewer_stays c fun q mem => ?_
  have later : p < q := above q mem
  rcases fewest q (asking (List.mem_append_right _ (List.mem_cons_of_mem _ mem))) later.ne' with less | same
  · exact less.le
  · exact same.1.le

theorem chosenPlayer_none {c : Clips} (h : ∀ p : Fin 4, ¬ c.asking p = true) : c.chosenPlayer = none := by
  rw [chosenPlayer_eq, List.filter_eq_nil_iff.mpr fun p _ => h p]
  rfl

theorem captureAsking_iff (c : Capture) : c.asking = true ↔ 64 ≤ c.buffer.length ∨ (c.phase = .closing ∧ c.buffer ≠ []) := by
  simp only [Capture.asking, Bool.or_eq_true, decide_eq_true_eq, Bool.and_eq_true, beq_iff_eq, Bool.not_eq_true',
    List.isEmpty_eq_false_iff]

section Grant

variable {c : Clips}

theorem grant_busy {b : Burst} (busy : c.burst = some b) : c.grant = c := by
  unfold Clips.grant
  rw [busy]

theorem grant_player (free : c.burst = none) {p : Fin 4} (chosen : c.chosenPlayer = some p) :
    c.grant = { c with burst := some { kind := c.playerBurst p, elapsed := 0 } } := by
  unfold Clips.grant
  rw [free, chosen]

theorem grant_capture (free : c.burst = none) (others : c.chosenPlayer = none) (asks : c.capture.asking = true) :
    c.grant = { c with
      burst := some { kind := .captureWrite (c.capture.buffer.take 64), elapsed := 0 }
      capture := { c.capture with buffer := c.capture.buffer.drop 64 } } := by
  unfold Clips.grant
  rw [free, others]
  exact if_pos asks

theorem grant_buffer (free : c.burst = none) (others : c.chosenPlayer = none) (quiet : ¬ c.capture.asking = true)
    {b : WriteBuffer} (held : c.writeBuffer = some b) :
    c.grant = { c with
      burst := some { kind := .bufferWrite (b.words.mapIdx (fun n w => (b.address + n, w))), elapsed := 0 }
      writeBuffer := some { b with granted := true } } := by
  unfold Clips.grant
  rw [free, others]
  simp only [if_neg quiet, held, cellsFrom_eq]

theorem grant_none (free : c.burst = none) (others : c.chosenPlayer = none) (quiet : ¬ c.capture.asking = true)
    (empty : c.writeBuffer = none) : c.grant = c := by
  unfold Clips.grant
  rw [free, others]
  simp only [if_neg quiet, empty]

theorem playerBurst_eq {p : Fin 4} {pos off : Nat} {e : ClipEntry} (fetch : (c.players[p]).fetch = some (pos, off))
    (entry : (c.players[p]).sequence[pos]?.bind (fun clip => c.directory[clip]) = some e) :
    c.playerBurst p = .playerRead p pos off
      (if (c.players[p]).state = .priming then min 64 (min (e.used - off) (256 - (c.players[p]).fifo.length))
        else min 64 (e.used - off)) false := by
  unfold Clips.playerBurst Clips.sequenceEntry
  simp only [fetch, Option.getD_some, entry, Option.map_some]
  split <;> rfl

end Grant

/-! ### The end of a burst -/

theorem burstDone_due {s : State} {k : BurstKind} (h : s.clips.burst = some { kind := k, elapsed := 2 }) :
    burstDone s = s.setClips (s.clips.complete k) := by
  unfold burstDone
  rw [h]
  exact if_pos (le_refl 2)

theorem complete_stale (c : Clips) (p : Fin 4) (pos off len : Nat) :
    c.complete (.playerRead p pos off len true) = { c with burst := none } := by
  unfold Clips.complete
  dsimp only
  split <;> rfl

theorem complete_read {c : Clips} {p : Fin 4} {pos off len : Nat} {e : ClipEntry}
    (entry : (c.players[p]).sequence[pos]?.bind (fun clip => c.directory[clip]) = some e) :
    c.complete (.playerRead p pos off len false) = { c with
      burst := none
      players := put c.players p ((c.players[p]).deliver e pos off
        ((List.range len).map (fun i => c.readWord (e.start + off + i)))) } := by
  unfold Clips.complete Clips.sequenceEntry
  simp only [entry, Bool.false_eq_true, if_false]

theorem deliver_eq (x : Player) (e : ClipEntry) (pos off : Nat) (words : List ClipWord) : x.deliver e pos off words =
    { x with
      fifo := x.fifo ++ (if e.honour then words.takeWhile (fun w => w != 0x8000) else words).map (fun w => (pos, w))
      fetch :=
        if (if e.honour then words.takeWhile (fun w => w != 0x8000) else words).length < words.length ∨
            e.used ≤ off + words.length then
          if pos + 1 < x.sequence.length then some (pos + 1, 0) else none
        else some (pos, off + words.length) } := by
  unfold Player.deliver Player.nextClip
  simp only [Bool.or_eq_true, decide_eq_true_eq]
  rfl

end Sys2Proof.Machine

open Sys2Proof Sys2Proof.Machine

/-- Settles O36: the memory laws by the cells written, the grant by who asks, the end of a burst by its kind. -/
theorem burstsAreGrantedAndDone : Obligations.BurstsAreGrantedAndDone := by
  intro s asks captureAsks
  have asks_iff (free : s.clips.burst = none) (p : Fin 4) : s.clips.asking p = true ↔ asks p := asking_iff free p
  have nobody (free : s.clips.burst = none) (none_asks : ∀ p, ¬ asks p) : s.clips.chosenPlayer = none :=
    chosenPlayer_none fun p => mt (asks_iff free p).mp (none_asks p)
  have capture_iff : s.clips.capture.asking = true ↔ captureAsks := captureAsking_iff _
  have grant_eq : exec .burstGrant s = .next (s.setClips s.clips.grant) := rfl
  have done_eq : exec .burstDone s = .next (burstDone s) := rfl
  rw [grant_eq, done_eq]
  refine ⟨fun wf cells x small => ⟨fun before after w split last => ?_, fun other => ?_⟩,
    fun x small => ⟨fun b n w held at_n same => ?_, fun outside => ?_⟩, fun busy => ?_,
    fun p pos off e free own fewest fetch entry => ?_, fun free others quiet empty => ?_,
    fun free others captures => ?_, fun b free others quiet held => ?_, fun cells burst => ?_, fun cells burst => ?_,
    fun p pos off len burst => ?_, fun p pos off len e burst entry => ?_⟩
  · subst split
    exact memRead_memWriteAll_last wf small last
  · exact memRead_memWriteAll_other wf small other
  · subst same
    exact readWord_buffered held at_n
  · exact readWord_memory small outside
  · obtain ⟨b, held⟩ := Option.ne_none_iff_exists'.mp busy
    rw [grant_busy held]
    rfl
  · have chosen := chosenPlayer_some ((asks_iff free p).mpr own)
      fun q asking other => fewest q ((asks_iff free q).mp asking) other
    rw [grant_player free chosen, playerBurst_eq fetch entry]
    rfl
  · rw [grant_none free (nobody free others) (mt capture_iff.mp quiet) empty]
    rfl
  · rw [grant_capture free (nobody free others) (capture_iff.mpr captures)]
    rfl
  · rw [grant_buffer free (nobody free others) (mt capture_iff.mp quiet) held]
    rfl
  · rw [burstDone_due burst]
    rfl
  · rw [burstDone_due burst]
    rfl
  · rw [burstDone_due burst, complete_stale]
    rfl
  · intro x words taken
    rw [burstDone_due burst, complete_read entry, deliver_eq, List.length_map, List.length_range]
    rfl

end

section
/-! One cycle period, block by block: what its beginning leaves, and what the rest of it makes of that. -/

namespace Sys2Proof.Machine

/-! ### The beginning -/

/-- The state from which a period begins: the period before is closed, by the arrival of a cycle or here. -/
def State.closedBefore (s : State) : State := if s.ring.arrived.isSome then s else closePeriod s

/-- What the beginning of a period leaves of each block. -/
structure Begun (s u b : State) : Prop where
  kept : EventFrame s u
  ring : b.ring = { u.ring with inserts := b.ring.inserts, taps := b.ring.taps }
  taps : b.ring.taps = u.ring.tapped.taps
  lines : b.lines = u.scanChoose.lines
  ports : b.ports = u.ports
  mix : b.mix = u.mix
  feeds : b.feeds = u.feeds
  pages : b.pages = u.pages
  alarm : b.alarm = u.alarm
  trackers : b.trackers = u.trackers
  ctl : b.ctl = (takeStart (forEach 4 (fun p s => s.idlePlayer p) u)).ctl
  clips : b.clips = (forEach 4 (fun p s => s.idlePlayer p) u).clips.grant
  recent : b.recent = u.recent
  older : b.older = u.older
  pending : b.pending = u.pending

theorem scanChoose_idle {u w : State} (idle : IdleFrame u w) : w.scanChoose.lines = u.scanChoose.lines := by
  have measurable : w.measurable = u.measurable := by
    rw [idle.rest]
    rfl
  have lines : w.lines = u.lines := (congrArg State.lines idle.rest :)
  unfold State.scanChoose
  rw [measurable, lines]
  split <;> first | rfl | exact lines

theorem begin_begun {s u w b : State} (eq : b = ((burstGrant (takeStart w).scanChoose).pollStart).readTaps)
    (idle : IdleFrame u w) (kept : EventFrame s u) (hw : w = forEach 4 (fun p s => s.idlePlayer p) u) : Begun s u b := by
  obtain ⟨ring, -, clips, lines, ports, mix, feeds, pages, alarm, trackers, ctl, recent, older, pending⟩ :=
    begin_blocks _ _ eq
  have rest := idle.rest
  have ringW : w.ring = { u.ring with inserts := w.ring.inserts } := (congrArg State.ring rest :)
  exact {
    kept := kept
    ring := by
      rw [ring, ringW]
      rfl
    taps := by
      rw [ring, ringW]
      rfl
    lines := lines.trans (scanChoose_idle idle)
    ports := ports.trans (congrArg State.ports rest :)
    mix := mix.trans (congrArg State.mix rest :)
    feeds := feeds.trans (congrArg State.feeds rest :)
    pages := pages.trans (congrArg State.pages rest :)
    alarm := alarm.trans (congrArg State.alarm rest :)
    trackers := trackers.trans (congrArg State.trackers rest :)
    ctl := hw ▸ ctl
    clips := hw ▸ clips
    recent := recent.trans (congrArg State.recent rest :)
    older := older.trans (congrArg State.older rest :)
    pending := pending.trans (congrArg State.pending rest :) }

theorem begun_begun (s : State) : Begun s s.closedBefore s.begun := by
  obtain ⟨eq, idle, kept⟩ := begun_blocks s s.closedBefore _ rfl rfl
  exact begin_begun eq idle kept rfl

/-- A due TAKE writes the event list alone of the control interface. -/
theorem takeStart_ctl (s : State) : (takeStart s).ctl = { s.ctl with
    events := (takeStart s).ctl.events, catchRec := (takeStart s).ctl.catchRec
    overflow := (takeStart s).ctl.overflow } := by
  unfold takeStart State.completeTake
  dsimp only
  split
  · split
    · rw [post_ctl]
      split <;> rfl
    · rfl
  · rfl

theorem Begun.control {s u b : State} (h : Begun s u b) : b.ctl = { u.ctl with
    events := b.ctl.events, catchRec := b.ctl.catchRec, overflow := b.ctl.overflow } := by
  have ctl := takeStart_ctl (forEach 4 (fun p s => s.idlePlayer p) u)
  rw [← h.ctl] at ctl
  have same : (forEach 4 (fun p s => s.idlePlayer p) u).ctl = u.ctl := (congrArg State.ctl (idlePlayers_idle u).rest :)
  rwa [same] at ctl

/-! ### The rest of the period -/

/-- What the rest of a period leaves of each block, from the state b in which it has begun. -/
structure Passed (b c t : State) (contacts : BitVec 4) : Prop where
  ring : t.ring = { b.ring with
    sent := some { b.ring.forward.cycle with slots := c.insertedSlots b.ring.forward.cycle.slots b.older }
    cycleNumber := t.ring.cycleNumber, forward := t.ring.forward, arrived := none, sendList := t.ring.sendList }
  cycleNumber : t.ring.cycleNumber =
    if b.ring.forward.generated = true ∧ b.ring.rx = .hunt then b.ring.forward.cycle.number else b.ring.cycleNumber
  forward : t.ring.forward = (match b.ring.rx, b.ring.arrived with
    | .locked, some c => { cycle := c, alertFree := false, generated := false }
    | .suspect, some c => { cycle := c, alertFree := false, generated := false }
    | _, _ =>
      { cycle :=
          { pattern := 0x3A97, number := t.ring.cycleNumber + 1, control := 0, alert := 0
            slots := Vector.replicate 64 0x800000 }
        alertFree := true, generated := true })
  ports : t.ports = (c.sendFrame c.older).ports
  lines : t.lines = b.lines.tick
  icom : t.icom = b.icomTick.icom
  settings : t.ctl.settings = b.ctl.settings
  incoming : t.ctl.incoming = b.ctl.incoming
  reply : t.ctl.reply = b.ctl.reply
  buffer : t.ctl.buffer = b.ctl.buffer
  pending : t.pending = b.pending
  recent : t.recent = c.compute
  older : t.older = b.recent
  mix : t.mix = c.mix

theorem tick_icomTick (s : State) (contacts : BitVec 4) : (s.tick contacts).icom = s.icomTick.icom :=
  (tick_blocks s contacts).2.2.1

theorem cyclePeriod_passed (frame : Vector RawSample 32) (contacts : BitVec 4) (s : State) :
    Passed s.begun (s.begun.prepare frame) (cyclePeriod frame contacts s) contacts := by
  obtain ⟨b, hb⟩ : ∃ b, b = s.begun := ⟨_, rfl⟩
  obtain ⟨c, hc⟩ : ∃ c, c = s.begun.prepare frame := ⟨_, rfl⟩
  obtain ⟨recent, older, mix, -, -⟩ := cyclePeriod_computed frame contacts s
  rw [← hc] at recent older mix
  rw [← hc, ← hb]
  have period := cyclePeriod_def frame contacts s _ _ rfl hc.symm
  obtain ⟨t, ht⟩ : ∃ t, t = cyclePeriod frame contacts s := ⟨_, rfl⟩
  rw [← ht] at recent older mix period ⊢
  obtain ⟨v, hv⟩ : ∃ v, v = (c.send c.compute).advance := ⟨_, rfl⟩
  rw [← hv] at period
  have advanced := advance_advanceFrame (c.send c.compute)
  rw [← hv] at advanced
  obtain ⟨tPorts, tLines, tIcom, -, tRing, tCtl, tPending, -⟩ := tick_blocks v contacts
  obtain ⟨fPorts, fLines, fIcom, -, fRing, fSettings, fIncoming, fReply, fBuffer, fPending, -⟩ := finish_blocks (v.tick contacts)
  obtain ⟨sPorts, sLines, sIcom, -, sCtl, sPending, -⟩ := send_blocks c c.compute
  have prepared := prepare_blocks b frame
  have more := prepare_more b frame
  rw [hb, ← hc] at prepared more
  obtain ⟨pLines, pRing, pCtl, pPending, pOlder, pRecent, -⟩ := prepared
  obtain ⟨-, -, pIcom, -⟩ := more
  rw [← hb] at pLines pRing pCtl pPending pOlder pRecent pIcom
  have ringV : v.ring = { b.ring with
      sent := some { b.ring.forward.cycle with slots := c.insertedSlots b.ring.forward.cycle.slots b.older }
      cycleNumber := if b.ring.forward.generated = true ∧ b.ring.rx = .hunt then b.ring.forward.cycle.number
        else b.ring.cycleNumber } := by
    rw [advanced.ring, send_ring, pRing, pOlder]
  have ringT : t.ring = (v.tick contacts).nextForward.ring := by rw [period, fRing]
  have forward := nextForward_forward (v.tick contacts)
  rw [← ringT, tRing] at forward
  have number : t.ring.cycleNumber = v.ring.cycleNumber := by
    rw [ringT, ← tRing]
    rfl
  have ctl : v.ctl.settings = b.ctl.settings ∧ v.ctl.incoming = b.ctl.incoming ∧ v.ctl.reply = b.ctl.reply ∧
      v.ctl.buffer = b.ctl.buffer := by
    rw [advanced.settings, advanced.incoming, advanced.reply, advanced.buffer, sCtl, pCtl]
    exact ⟨rfl, rfl, rfl, rfl⟩
  obtain ⟨settings, incoming, reply, buffer⟩ := ctl
  exact {
    ring := by
      have moved : t.ring = { v.ring with
          forward := t.ring.forward, arrived := none, sendList := t.ring.sendList } := by
        rw [ringT, ← tRing]
        rfl
      rw [moved, ringV]
    cycleNumber := by rw [number, ringV]
    forward := by
      rw [forward, number, ringV] <;> rfl
    ports := by rw [period, fPorts, tPorts, advanced.ports, sPorts]
    lines := by rw [period, fLines, tLines, advanced.lines, sLines, pLines]
    icom := by
      have icom : v.icom = b.icom := by rw [advanced.icom, sIcom, pIcom]
      rw [period, fIcom, tIcom]
      unfold State.icomTick
      rw [icom]
      rfl
    settings := by rw [period, fSettings, tCtl, settings]
    incoming := by rw [period, fIncoming, tCtl, incoming]
    reply := by rw [period, fReply, tCtl, reply]
    buffer := by rw [period, fBuffer, tCtl, buffer]
    pending := by rw [period, fPending, tPending, advanced.pending, sPending, pPending]
    recent := recent
    older := by rw [older, pRecent]
    mix := mix }

/-! ### The frame and the cycle sent -/

theorem tick_scan (l : Lines) : l.tick.faults = l.faults ∧ l.tick.scanner = l.scanner := by
  unfold Lines.tick
  split <;> exact ⟨rfl, rfl⟩

theorem measureFlags_iff (l : Lines) (c : Fin 32) :
    (measureFlags l.named).getLsbD c.val = true ↔ l.scanner = .stepping c := by
  unfold Lines.named
  cases scanner : l.scanner with
  | stepping d =>
    have flag : (measureFlags (some d)).getLsbD c.val = decide (d.val = c.val) := by
      change (BitVec.twoPow 32 d.val).getLsbD c.val = _
      rw [BitVec.getLsbD_twoPow]
      simp only [decide_true, Bool.true_and, d.isLt]
    simp only [flag, decide_eq_true_eq, ScanState.stepping.injEq, Fin.ext_iff]
  | _ => simp [measureFlags]

/-- The sample of a channel, by its fault record and its role (R48, R177). -/
theorem channelSample_eq (s : State) (c : Fin 32) (k : Computation) : s.channelSample c k =
    match s.lines.faults[c], s.ports.channels[c] with
    | .fault .short _, _ => 0
    | _, .zone z => k.zones[z]
    | _, .station p => k.speakers[p]
    | _, .none => k.noneOut := by
  unfold State.channelSample State.muted
  generalize s.lines.faults[c] = x
  cases x with
  | ok => cases s.ports.channels[c] <;> rfl
  | suspect kind => cases s.ports.channels[c] <;> rfl
  | fault kind n =>
    cases kind with
    | short => rfl
    | _ => cases s.ports.channels[c] <;> rfl

theorem insertSample_eq (k : Computation) (x : InsertSource) : k.insertSample x = match x with
    | .localInput n => k.inputs[n]
    | .zone z => k.zones[z]
    | .player p => k.players[p]
    | .trunkCall id => ((k.trunks.find? (fun t => t.1 == id)).map (·.2)).getD (-8388608) := by
  cases x <;> rfl

theorem tapped_tap (r : Ring) (k : Fin 64) : r.tapped.taps[k] = match r.rx, r.arrived with
    | .locked, some c => (c.slots[k]).toInt
    | _, _ => -8388608 := by
  unfold Ring.tapped
  cases r.rx with
  | locked =>
    cases r.arrived with
    | none => exact replicate_get _ _
    | some c => exact ofFn_get _ _
  | hunt => cases r.arrived <;> exact replicate_get _ _
  | suspect => cases r.arrived <;> exact replicate_get _ _

/-- The input stage, its steps written out (R44, R45). -/
theorem inputStage_eq (f : PortFormat) (trim : Fin 4) (w : RawSample) :
    let v : Int := match f with
      | .twos => w.toInt
      | .offset => w.toNat - 8388608
    let x : Int := if v = -8388608 then -8388607 else v
    inputStage f trim w = max (-8388607) (min 8388607 (x * ((2 ^ trim.val : Nat) : Int))) := by
  cases f <;> rfl

end Sys2Proof.Machine

open Sys2Proof Sys2Proof.Machine

/-- Settles O21: each field from what the beginning of the period and the rest of it leave. -/
theorem cyclePeriodSendsAndComputes : Obligations.CyclePeriodSendsAndComputes := by
  intro s frame contacts u f
  have hu : u = s.closedBefore := rfl
  have hf : f = u.ring.forward := rfl
  clear_value f u
  subst hf
  obtain ⟨t, ht⟩ : ∃ t, t = cyclePeriod frame contacts s := ⟨_, rfl⟩
  have begun := begun_begun s
  have passed := cyclePeriod_passed frame contacts s
  obtain ⟨b, hb⟩ : ∃ b, b = s.begun := ⟨_, rfl⟩
  have prepared := prepare_blocks s.begun frame
  obtain ⟨c, hc⟩ : ∃ c, c = s.begun.prepare frame := ⟨_, rfl⟩
  rw [← ht, ← hc, ← hb] at passed
  rw [← hc, ← hb] at prepared
  rw [← hb] at begun
  rw [← hu] at begun
  obtain ⟨cLines, cRing, -, -, cOlder, -, cBankA, cBankB, cPorts, cSamples⟩ := prepared
  have kept := begun.kept
  have ports : b.ports = s.ports := begun.ports.trans kept.ports
  have older : c.older = s.older := cOlder.trans (begun.older.trans kept.older)
  have forward : b.ring.forward = u.ring.forward := (congrArg Ring.forward begun.ring :)
  have rx : b.ring.rx = s.ring.rx := (congrArg Ring.rx begun.ring :).trans kept.rx
  have arrived : b.ring.arrived = s.ring.arrived := (congrArg Ring.arrived begun.ring :).trans kept.arrived
  have number : b.ring.cycleNumber = s.ring.cycleNumber := (congrArg Ring.cycleNumber begun.ring :).trans kept.cycleNumber
  have ringT := passed.ring
  have inserts : t.ring.inserts = c.ring.inserts := by
    rw [ringT, cRing]
  have portsT : t.ports = { c.ports with frameOut := t.ports.frameOut } := by
    rw [passed.ports]
    rfl
  have rest : t.ports = { s.ports with samples := t.ports.samples, frameOut := t.ports.frameOut } := by
    rw [portsT, cPorts, ports]
  have lines := passed.lines
  obtain ⟨faults, scanner⟩ := tick_scan b.lines
  rw [← lines] at faults scanner
  have control := begun.control
  refine ⟨t, by rw [ht]; rfl, ?_⟩
  refine ⟨passed.older.trans (begun.recent.trans kept.recent), fun i => ⟨?_, ?_⟩, fun ch => ⟨?_, ?_⟩, ?_, fun k => ?_, ?_, ?_,
    ?_, ?_, ?_, ?_, ?_, ?_, ?_, ?_, ?_, ?_, ?_, ?_, ?_, ?_⟩
  · have samples : t.ports.samples = c.ports.samples := by rw [portsT]
    rw [samples, cSamples, mapTable_get, ports]
    exact inputStage_eq _ _ _
  · rw [passed.recent, compute_inputs, portsT]
  · rw [passed.ports]
    refine (ofFn_get _ _).trans ?_
    have format : c.ports.outFormat = s.ports.outFormat := by rw [cPorts, ports]
    have channels : c.ports.channels = s.ports.channels := by rw [cPorts, ports]
    rw [format, channelSample_eq, channels, older, cLines, ← faults]
    cases s.ports.outFormat <;> rfl
  · rw [passed.ports, scanner, ← cLines]
    exact measureFlags_iff c.lines ch
  · refine ⟨_, by rw [ringT], by rw [forward], by rw [forward], by rw [forward], by rw [forward], fun k other => ?_,
      fun i mem single => ?_⟩
    · rw [inserts] at other
      exact (insertedSlots_other c.ring.inserts _ _ k other).trans (by rw [forward])
    · rw [inserts] at mem single
      have own := insertedSlots_own c.ring.inserts b.ring.forward.cycle.slots s.older i mem single
      rw [insertSample_eq] at own
      rw [← cOlder, older]
      exact own
  · have taps : t.ring.taps = u.ring.tapped.taps := (congrArg Ring.taps ringT :).trans begun.taps
    change t.ring.taps[k] = _
    rw [taps, tapped_tap, kept.rx, kept.arrived] <;> rfl
  · rw [passed.cycleNumber, forward, rx, number]
  · rw [passed.forward, rx, arrived] <;> rfl
  · rw [ringT]
  · exact (congrArg Ring.rx ringT :).trans rx
  · exact (congrArg Ring.address ringT :).trans ((congrArg Ring.address begun.ring :).trans kept.address)
  · rw [rest]
  · rw [rest]
  · rw [rest]
  · rw [rest]
  · rw [passed.settings, control]
  · rw [passed.incoming, control]
  · rw [passed.reply, control]
    exact kept.reply
  · rw [passed.buffer, control]
    exact kept.buffer
  · rw [passed.mix, cBankA, begun.mix, kept.bankA]
  · rw [passed.mix, cBankB, begun.mix, kept.bankB]
  · exact passed.pending.trans (begun.pending.trans kept.pending)

end

section
/-! Pages, calls and polls through a period, the state of a station, and the cue of a poll. -/

namespace Sys2Proof.Machine

/-! ### The pages -/

/-- With no zones to hand over, the pages of a period count alone. -/
theorem cyclePeriod_pages (frame : Vector RawSample 32) (contacts : BitVec 4) {s : State}
    (handed : s.begun.scene.handed = 0) : (cyclePeriod frame contacts s).pages =
      { s.begun.pages with queue := s.begun.pages.queue.map (Page.tick s.begun.tap) } := by
  have period := cyclePeriod_def frame contacts s _ _ rfl rfl
  obtain ⟨b, hb⟩ : ∃ b, b = s.begun := ⟨_, rfl⟩
  have more := prepare_more b frame
  have prepared := prepare_blocks b frame
  rw [← hb] at period handed ⊢
  obtain ⟨c, hc⟩ : ∃ c, c = b.prepare frame := ⟨_, rfl⟩
  rw [← hc] at period more prepared
  have advanced := advance_advanceFrame (c.send c.compute)
  obtain ⟨v, hv⟩ : ∃ v, v = (c.send c.compute).advance := ⟨_, rfl⟩
  rw [← hv] at period advanced
  obtain ⟨-, -, -, tScene, -, -, -, tPages, -⟩ := tick_blocks v contacts
  obtain ⟨-, -, -, -, -, -, -, -, -, -, -, -, -, -, -, -, idle⟩ := finish_blocks (v.tick contacts)
  obtain ⟨-, -, -, sScene, -, -, sPages, -, -, -, -, sTaps, -⟩ := send_blocks c c.compute
  obtain ⟨-, cRing, -⟩ := prepared
  obtain ⟨-, cPages, -, -, -, cScene, -⟩ := more
  have scene : v.scene = b.scene := advanced.scene.trans (sScene.trans cScene)
  have pages : v.pages = b.pages := advanced.pages.trans (sPages.trans cPages)
  have taps : v.ring.taps = b.ring.taps := by rw [advanced.ring, sTaps, cRing]
  have tap : v.tap = b.tap := funext fun k => by rw [State.tap, taps, State.tap]
  rw [period, (idle (by rw [tScene, scene, handed])).1, tPages]
  unfold State.pageTick
  rw [tap, pages]
  rfl

theorem pageTick_eq (tap : Fin 64 → Int) (p : Page) : p.tick tap =
    (let live := p.state == .playing && p.phase == .audio && !p.clip
     { p with
      waitTimer := if p.waitLife = 0 then p.waitTimer + 1 else min (p.waitLife * 48000) (p.waitTimer + 1)
      playTimer := if live then min (p.playLimit * 48000) (p.playTimer + 1) else p.playTimer
      sourceLoss := match live, p.source with
        | true, .liveSlot x => if tap x = -8388608 then min 96000 (p.sourceLoss + 1) else 0
        | _, _ => p.sourceLoss
      restartIn := p.restartIn.map (· - 1), suspPosted := false }) := by
  unfold Page.tick
  dsimp only
  generalize (p.state == .playing && p.phase == .audio && !p.clip) = live
  cases live with
  | false => rfl
  | true => cases p.source <;> rfl

/-! ### The intercom -/

theorem callTick_eq (c : Call) : c.tick = match c.state with
    | .held => { c with holdTimer := c.holdTimer + 1 }
    | .connected => c
    | _ => { c with ringTimer := c.ringTimer + 1 } := by
  unfold Call.tick
  cases c.state <;> rfl

theorem stationTick_eq (e : Station) : e.tick =
    if e.cueTimer = 0 then e
    else if e.cueTimer = 1 then { e with cueDue := true } else { e with cueTimer := e.cueTimer - 1 } := by
  unfold Station.tick
  split
  · rw [if_neg (by omega), if_neg (by omega)]
  · split
    · rw [if_neg (by omega)]
    · rw [if_pos (by omega)]

/-- The poll through a period's timers. -/
theorem icomTick_poll (s : State) : s.icomTick.icom.awaiting = s.icom.awaiting ∧ s.icomTick.icom.poll = s.icom.poll ∧
    s.icomTick.icom.nextPort = s.icom.nextPort := by
  simp only [State.icomTick, Intercom.slotTick, State.setIcom_icom, and_self]

/-- What a period leaves of the intercom, from the state u before its beginning (R131). -/
theorem begun_icom (s : State) :
    s.begun.icom.slotTime = s.closedBefore.icom.slotTime ∧
    (s.closedBefore.icom.slotTime = 0 →
      s.begun.icom.awaiting = some s.closedBefore.icom.nextPort ∧
      s.begun.icom.poll.map (·.1) = some s.closedBefore.icom.nextPort ∧
      s.begun.icom.nextPort.val = (s.closedBefore.icom.nextPort.val + 1) % 32) ∧
    (s.closedBefore.icom.slotTime ≠ 0 → s.begun.icom = s.closedBefore.icom) := by
  obtain ⟨eq, idle, -⟩ := begun_blocks s s.closedBefore _ rfl rfl
  obtain ⟨-, -, -, -, slot, first, later⟩ := begin_icom _ _ eq
  have same := (congrArg State.icom idle.rest :)
  rw [same] at slot first later
  exact ⟨slot, first, later⟩

/-! ### The state of a station -/

theorem callOf_apart {s : State} (apart : s.callsApart) {c : Call} (mem : c ∈ s.icom.calls) {p : Fin 32}
    (party : p ∈ c.stations) : s.callOf p = some c := by
  cases found : s.callOf p with
  | none => exact absurd party ((callOf_none_iff s p).mp found c mem)
  | some d =>
    obtain ⟨memD, partyD⟩ := callOf_mem s p d found
    have symm : Std.Symm (fun a b : Call => ∀ p ∈ a.stations, p ∉ b.stations) :=
      ⟨fun a b apart p hb ha => apart p ha hb⟩
    by_contra other
    exact apart.1.forall mem memD (fun same => other (by rw [same])) p party partyD

theorem callStationState_eq (c : Call) (p : Fin 32) : c.stationState p = match c.state, c.parties with
    | .connected, _ => .talking
    | .held, _ => .held
    | .wanted, _ => .calling
    | .ringing, .loc x _ => if p = x then .calling else .ringing
    | .ringing, .trunkOut _ _ => .calling
    | .ringing, .trunkIn _ _ => if c.answered then .talking else .ringing := by
  unfold Call.stationState
  cases c.state <;> cases c.parties <;> rfl

/-! ### The cue of a poll -/

theorem applySettings_icom (s : State) : s.applySettings.icom = s.icom ∧ s.applySettings.alarm = s.alarm := by
  unfold State.applySettings
  split <;> exact ⟨rfl, rfl⟩

theorem pollCue_poll {s : State} (slot : s.icom.slotTime = 1) : s.pollCue =
    s.setIcom { s.icom with poll := s.icom.poll.map (fun x => (x.1, s.cue x.1)) } := if_pos slot

/-- The poll's cue is the one the closed period gives. -/
theorem closePeriod_poll {s : State} {p : Fin 32} {c : Cue} (slot : s.icom.slotTime = 1)
    (poll : s.icom.poll = some (p, c)) : (closePeriod s).icom.poll = some (p, (closePeriod s).cue p) := by
  have closed := closed_quiet s
  unfold closePeriod
  generalize s.closeClips.closeFeeds.closeAlarms.closeCalls.closePages.closeRest = w at closed
  have read := pollCue_poll (closed.slotTime.trans slot)
  obtain ⟨icom, alarm⟩ := applySettings_icom w.pollCue
  have cue : w.pollCue.applySettings.cue p = w.cue p := by
    have station : w.pollCue.applySettings.stationState p = w.stationState p := by
      unfold State.stationState State.callOf
      rw [icom, read]
      rfl
    have covered : w.pollCue.applySettings.covered = w.covered := by
      funext z
      unfold State.covered
      rw [alarm, read]
      rfl
    unfold State.cue
    rw [station, covered, icom, read]
    rfl
  rw [cue, icom, read]
  change w.icom.poll.map (fun x => (x.1, w.cue x.1)) = _
  rw [closed.poll, poll]
  rfl

theorem cue_entry {s : State} {p : Fin 32} {e : Station} (entry : s.icom.table[p] = some e) : s.cue p =
    match s.stationState p with
    | .absent => .idle
    | .idle => if 0 < e.cueTimer then .busy else if e.listen.any s.covered then .alarm else .idle
    | .calling => .ringback
    | .ringing => .ringing
    | .talking => .talking
    | .held => .held := by
  unfold State.cue
  rw [entry]
  cases s.stationState p <;> rfl

end Sys2Proof.Machine

open Sys2Proof Sys2Proof.Machine

/-- Settles O43: by the tick of each record, the poll at slot time 0, and the call a station is a party to. -/
theorem periodsCountPagesCallsAndPolls : Obligations.PeriodsCountPagesCallsAndPolls := by
  refine ⟨fun s frame contacts => ?_, fun s p => ⟨fun absent => ?_, fun present free => ?_,
    fun c mem present apart party => ?_⟩, fun s p c slot poll => ?_⟩
  · intro u b
    have hu : u = s.closedBefore := rfl
    have hb : b = s.begun := rfl
    have passed := cyclePeriod_passed frame contacts s
    obtain ⟨slot, first, later⟩ := begun_icom s
    have pages := cyclePeriod_pages frame contacts (s := s)
    have run : exec (.cyclePeriod frame contacts) s = .next (cyclePeriod frame contacts s) := rfl
    rw [← hb] at passed pages
    rw [← hb, ← hu] at slot first later
    clear_value b u
    obtain ⟨t, ht⟩ : ∃ t, t = cyclePeriod frame contacts s := ⟨_, rfl⟩
    rw [← ht] at passed pages run
    have icom := passed.icom
    obtain ⟨awaiting, poll, nextPort⟩ := icomTick_poll b
    refine ⟨t, run, fun handed => ?_, ?_, fun p => ?_, ?_, fun zero => ?_, fun running => ?_⟩
    · rw [pages handed, List.map_congr_left fun p _ => pageTick_eq _ p] <;> rfl
    · rw [icom]
      exact List.map_congr_left fun c _ => callTick_eq c
    · rw [icom]
      refine (mapTable_get _ _ _).trans ?_
      exact congrArg (fun f => Option.map f b.icom.table[p]) (funext stationTick_eq)
    · rw [icom]
      change (if b.icom.slotTime < 47 then b.icom.slotTime + 1 else 0) = _
      rw [slot]
    · rw [icom, awaiting, poll, nextPort]
      exact first zero
    · rw [icom, awaiting, poll, nextPort, later running]
      exact ⟨rfl, rfl, rfl⟩
  · unfold State.stationState
    rw [absent]
    rfl
  · unfold State.stationState
    rw [if_pos present, (callOf_none_iff s p).mpr free]
  · unfold State.stationState
    rw [if_pos present, callOf_apart apart mem party]
    exact callStationState_eq c p
  · have read := closePeriod_poll slot poll
    obtain ⟨v, hv⟩ : ∃ v, v = closePeriod s := ⟨_, rfl⟩
    rw [← hv] at read ⊢
    refine ⟨fun free => read.trans (congrArg (fun c => some (p, c)) ?_), fun e entry =>
      read.trans (congrArg (fun c => some (p, c)) (cue_entry entry))⟩
    unfold State.cue
    rw [free]

end

section
/-! The alarm engine, the scanner and the trackers through a period (R153, R156, R162, R163, R171 to R173, R182, R183). -/

namespace Sys2Proof.Machine

/-! ### The blocks -/

/-- Sending a frame leaves the input samples and the settings of the inputs. -/
theorem sendFrame_inputs (s : State) (k : Computation) :
    (s.sendFrame k).ports.samples = s.ports.samples ∧ (s.sendFrame k).ports.inputs = s.ports.inputs := by
  simp only [State.sendFrame, State.setPorts_ports, and_self]

/-- What a period leaves of the alarm engine and of the trackers. -/
theorem cyclePeriod_supervision (frame : Vector RawSample 32) (contacts : BitVec 4) (s : State) :
    (cyclePeriod frame contacts s).alarm.contacts =
      mapTable (fun k (c : Contact) => c.sample (!contacts.getLsbD k.val)) s.begun.alarm.contacts ∧
    (cyclePeriod frame contacts s).alarm.records =
      mapTable (fun _ (r : Option AlarmRec) => r.map (fun r => r.tick s.begun.heard)) s.begun.alarm.records ∧
    (cyclePeriod frame contacts s).alarm.generators = s.begun.alarm.advanceAll.generators ∧
    (cyclePeriod frame contacts s).trackers = mapTable
      (fun z t => t.measure (s.begun.prepare frame).ports.samples (s.begun.senseInput z 0) (s.begun.senseInput z 1)
        (s.begun.audibleIn z || s.begun.covered z)) s.begun.glideAll.trackers := by
  have period := cyclePeriod_def frame contacts s _ _ rfl rfl
  obtain ⟨b, hb⟩ : ∃ b, b = s.begun := ⟨_, rfl⟩
  have more := prepare_more b frame
  have prepared := prepare_blocks b frame
  rw [← hb] at period ⊢
  obtain ⟨c, hc⟩ : ∃ c, c = b.prepare frame := ⟨_, rfl⟩
  rw [← hc] at period more prepared ⊢
  have advanced := advance_advanceFrame (c.send c.compute)
  have alarm := advance_alarm (c.send c.compute)
  have trackers := advance_trackers (c.send c.compute)
  obtain ⟨v, hv⟩ : ∃ v, v = (c.send c.compute).advance := ⟨_, rfl⟩
  rw [← hv] at period advanced alarm trackers
  obtain ⟨-, -, -, -, -, -, -, -, tAlarm, -, -, tTrackers, -⟩ := tick_blocks v contacts
  obtain ⟨-, -, -, -, -, -, -, -, -, -, fAlarm, -, fTrackers, -⟩ := finish_blocks (v.tick contacts)
  obtain ⟨sPorts, -, -, -, -, -, sPages, sAlarm, -, -, sTrackers, -, sRx⟩ := send_blocks c c.compute
  obtain ⟨-, cRing, -, -, -, -, -, -, cPorts, -⟩ := prepared
  obtain ⟨cAlarm, cPages, -, -, -, -, cTrackers⟩ := more
  have heard : v.heard = b.heard := by
    unfold State.heard
    rw [advanced.ring, sRx, cRing]
  have samples : (c.send c.compute).ports.samples = c.ports.samples := by
    rw [sPorts, (sendFrame_inputs _ _).1]
  have inputs : (c.send c.compute).ports.inputs = b.ports.inputs := by
    rw [sPorts, (sendFrame_inputs _ _).2, cPorts]
  have sense (z : Fin 24) (position : Fin 2) :
      (c.send c.compute).senseInput z position = b.senseInput z position := by
    unfold State.senseInput
    rw [inputs]
  have audibleSame (z : Fin 24) : (c.send c.compute).audibleIn z = b.audibleIn z := by
    unfold State.audibleIn State.holder
    rw [sPages, cPages]
  have coveredSame (z : Fin 24) : (c.send c.compute).covered z = b.covered z := by
    unfold State.covered
    rw [sAlarm, cAlarm]
  rw [sAlarm, cAlarm] at alarm
  rw [sTrackers, cTrackers, samples] at trackers
  simp only [sense, audibleSame, coveredSame] at trackers
  rw [period, fAlarm, tAlarm, fTrackers, tTrackers]
  rw [State.alarmTick, State.setAlarm_alarm, alarm, heard]
  exact ⟨rfl, rfl, rfl, trackers⟩

/-! ### The alarm engine -/

theorem contact_sample (c : Contact) (level : Bool) : c.sample (!level) =
    { c with run := if c.active = !level then 0 else min 48000 (c.run + 1) } := by
  obtain ⟨cls, group, pattern, broadcast, active, run⟩ := c
  cases active <;> cases level <;> rfl

/-- A record with its broadcast timer counted and a refresh timer (R162, R163). -/
def AlarmRec.counted (r : AlarmRec) (n : Nat) : AlarmRec :=
  { r with
    broadcastTimer := if r.broadcast then min 96000 (r.broadcastTimer + 1) else r.broadcastTimer
    refreshTimer := n }

theorem record_tick (r : AlarmRec) (locked : Bool) : r.tick locked =
    r.counted (if r.remote = true ∧ locked = true then min 288000 (r.refreshTimer + 1) else r.refreshTimer) := by
  unfold AlarmRec.tick AlarmRec.counted
  simp only [Bool.and_eq_true]

theorem silent_iff (p : PatternStep) :
    p.silent = true ↔ p.mode = .silent ∨ p.n1 = 0 ∨ (p.mode = .sweep ∧ p.n2 = 0) := by
  unfold PatternStep.silent
  cases p.mode <;> simp

theorem divider_eq (p : PatternStep) (e : Nat) : p.divider e = min 4800 (max 24
    (if p.mode = .sweep then
      (if p.n1 ≤ p.n2 then p.n1 + (p.n2 - p.n1) * e / (p.duration * 480)
        else p.n1 - (p.n1 - p.n2) * e / (p.duration * 480))
    else p.n1)) := by
  unfold PatternStep.divider
  cases p.mode <;> rfl

theorem sample_sounding {g : Generator} {p : PatternStep} (sounds : p.silent = false) (range : p.amplitude ≤ 8388607) :
    g.sample p = if 2 * g.position < g.period p then (p.amplitude : Int) else -(p.amplitude : Int) := by
  unfold Generator.sample
  rw [sounds, if_neg Bool.false_ne_true, saturate_of_range _ (by omega) (by omega),
    saturate_of_range _ (by omega) (by omega)]
  exact if_congr (by omega) rfl rfl

theorem advance_sounding {g : Generator} {p : PatternStep} (sounds : p.silent = false) : g.advance p =
    { g with
      elapsed := g.elapsed + 1, divider := g.period p
      position := if g.position + 1 < g.period p then g.position + 1 else 0 } :=
  if_neg (by rw [sounds]; exact Bool.false_ne_true)

theorem sample_silent {g : Generator} {p : PatternStep} (silent : p.silent = true) : g.sample p = 0 := if_pos silent

theorem advance_silent {g : Generator} {p : PatternStep} (silent : p.silent = true) :
    g.advance p = { g with elapsed := g.elapsed + 1 } := if_pos silent

/-! ### The scanner -/

theorem measurable_iff (s : State) (c : Fin 32) :
    s.measurable c = true ↔ (∃ z, s.ports.channels[c] = .zone z) ∧ (s.lines.windows[c]).enabled = true := by
  unfold State.measurable
  rw [Bool.and_eq_true]
  refine and_congr_left fun _ => ?_
  cases s.ports.channels[c] <;> simp

/-- The scanner is to choose. -/
def ScanState.chooses (x : ScanState) : Prop := x = .choosing ∨ x = .searching

theorem scanChoose_chooses {u : State} (chooses : u.lines.scanner.chooses) :
    u.scanChoose.lines = u.lines.choose u.measurable := by
  unfold State.scanChoose
  rcases chooses with at_ | at_ <;> rw [at_] <;> rfl

theorem scanChoose_found {u : State} {j : Nat} (chooses : u.lines.scanner.chooses) (range : j ≤ u.lines.settings.top.val)
    (can : u.measurable ((scanAfter u.lines.settings.top)^[j] u.lines.position) = true)
    (before : ∀ i < j, u.measurable ((scanAfter u.lines.settings.top)^[i] u.lines.position) = false) :
    u.scanChoose.lines.tick = { u.lines with
      scanner := .stepping ((scanAfter u.lines.settings.top)^[j] u.lines.position)
      position := scanAfter u.lines.settings.top ((scanAfter u.lines.settings.top)^[j] u.lines.position)
      stepTimer := 1, held := none, discard := false } := by
  have found := (scan_find u.lines.settings.top u.measurable (u.lines.settings.top.val + 1) u.lines.position).1 j
    (by omega) can before
  rw [scanChoose_chooses chooses, Lines.choose, found]
  rfl

theorem scanChoose_none {u : State} (chooses : u.lines.scanner.chooses)
    (cannot : ∀ j ≤ u.lines.settings.top.val,
      u.measurable ((scanAfter u.lines.settings.top)^[j] u.lines.position) = false) :
    u.scanChoose.lines.tick = { u.lines with scanner := .searching } := by
  have absent := (scan_find u.lines.settings.top u.measurable (u.lines.settings.top.val + 1) u.lines.position).2
    fun j less => cannot j (by omega)
  rw [scanChoose_chooses chooses, Lines.choose, absent]
  rfl

theorem scanChoose_rest {u : State} (rests : ¬ u.lines.scanner.chooses) : u.scanChoose.lines = u.lines := by
  unfold State.scanChoose
  split
  · rename_i at_
    exact absurd (.inl at_) rests
  · rename_i at_
    exact absurd (.inr at_) rests
  · rfl

/-! ### The trackers -/

theorem senseInput_none_iff (s : State) (z : Fin 24) (position : Fin 2) :
    s.senseInput z position = none ↔ ∀ i : Fin 32, (s.ports.inputs[i]).role ≠ .sense z position := by
  rw [← Option.not_isSome_iff_eq_none, senseInput_isSome_iff, not_exists]

theorem senseInput_eq {s : State} {z : Fin 24} {position : Fin 2} {i : Fin 32}
    (here : (s.ports.inputs[i]).role = .sense z position)
    (before : ∀ j < i, (s.ports.inputs[j]).role ≠ .sense z position) : s.senseInput z position = some i :=
  (find_indices_iff _ i).mpr ⟨beq_iff_eq.mpr here, fun j less => beq_eq_false_iff_ne.mpr (before j less)⟩

/-- A sample lies in a bin: by the bit length of its magnitude (R183). -/
def inBin (v : Int) (n : Nat) : Prop :=
  (n = 0 ∧ v.natAbs < 256) ∨ (1 ≤ n ∧ n ≤ 14 ∧ 2 ^ (n + 7) ≤ v.natAbs ∧ v.natAbs < 2 ^ (n + 8)) ∨
    (n = 15 ∧ 4194304 ≤ v.natAbs)

theorem sampleBin_low {v : Int} (low : v.natAbs < 256) : (sampleBin v).val = 0 := by
  unfold sampleBin
  dsimp only
  split
  · rfl
  · rename_i positive
    have bits := (Nat.log2_lt positive (k := 8)).mpr (by omega)
    omega

theorem sampleBin_high {v : Int} (high : 256 ≤ v.natAbs) : (sampleBin v).val = min 15 (v.natAbs.log2 - 7) := by
  unfold sampleBin
  dsimp only
  rw [if_neg (by omega)]
  congr 1

theorem inBin_iff (v : Int) (n : Fin 16) : inBin v n.val ↔ n = sampleBin v := by
  rw [Fin.ext_iff]
  unfold inBin
  have range := n.isLt
  by_cases low : v.natAbs < 256
  · rw [sampleBin_low low]
    refine ⟨?_, fun here => .inl ⟨here, low⟩⟩
    rintro (⟨here, -⟩ | ⟨least, -, above, -⟩ | ⟨-, above⟩)
    · exact here
    · have bound : 2 ^ 8 ≤ 2 ^ (n.val + 7) := Nat.pow_le_pow_right (by omega) (by omega)
      omega
    · omega
  · have positive : v.natAbs ≠ 0 := by omega
    have length (k : Nat) : k ≤ v.natAbs.log2 ↔ 2 ^ k ≤ v.natAbs := Nat.le_log2 positive
    rw [sampleBin_high (by omega), ← length (n.val + 7), ← Nat.not_le, ← Nat.not_le, ← length (n.val + 8),
      show (4194304 : Nat) = 2 ^ 22 from rfl, ← length 22, show (256 : Nat) = 2 ^ 8 from rfl, ← length 8]
    have high : 8 ≤ v.natAbs.log2 := (length 8).mpr (by omega)
    omega

theorem countBin_bins (samples : Vector Int 32) (h : Vector Nat 16) (i : Fin 32) (n : Fin 16) :
    (inBin samples[i] n.val → (countBin samples h (some i))[n] = h[n] + 1) ∧
    (¬ inBin samples[i] n.val → (countBin samples h (some i))[n] = h[n]) := by
  rw [inBin_iff, countBin, put_get]
  refine ⟨fun here => ?_, fun other => if_neg other⟩
  rw [if_pos here, here]

theorem measure_hists {t : ZoneTracker} {samples : Vector Int 32} {in0 in1 : Option (Fin 32)} {freeze : Bool} :
    (t.measure samples in0 in1 freeze).hist0 = countBin samples t.hist0 in0 ∧
    (t.measure samples in0 in1 freeze).hist1 = countBin samples t.hist1 in1 := by
  unfold ZoneTracker.measure
  split
  · exact ⟨rfl, rfl⟩
  · rename_i absent
    cases in0 with
    | some i => exact absurd rfl absent
    | none =>
      cases in1 with
      | some i => exact absurd rfl absent
      | none => exact ⟨rfl, rfl⟩

theorem glideAll_get (s : State) (z : Fin 24) : s.glideAll.trackers[z] =
    { s.trackers[z] with ce := glide (s.trackers[z]).ce (Config.compensation (s.trackers[z]).k) } := by
  unfold State.glideAll
  rw [State.setTrackers_trackers, mapTable_get]

end Sys2Proof.Machine

open Sys2Proof Sys2Proof.Machine

/-- Settles O57: the alarm engine, the scanner and the trackers of a period, one after the other. -/
theorem periodsCountAlarmsLinesAndTrackers : Obligations.PeriodsCountAlarmsLinesAndTrackers := by
  intro s frame contacts u b
  have hu : u = s.closedBefore := rfl
  have hb : b = s.begun := rfl
  clear_value b u
  have begun := begun_begun s
  obtain ⟨tContacts, tRecords, tGenerators, tTrackers⟩ := cyclePeriod_supervision frame contacts s
  have passed := cyclePeriod_passed frame contacts s
  have prepared := prepare_blocks s.begun frame
  obtain ⟨t, ht⟩ : ∃ t, t = cyclePeriod frame contacts s := ⟨_, rfl⟩
  obtain ⟨c, hc⟩ : ∃ c, c = s.begun.prepare frame := ⟨_, rfl⟩
  rw [← ht, ← hc, ← hb] at passed
  rw [← ht, ← hb] at tContacts tRecords tGenerators
  rw [← ht, ← hc, ← hb] at tTrackers
  rw [← hu, ← hb] at begun
  have kept := begun.kept
  have heard : b.heard = true ↔ s.ring.rx = .locked := by
    unfold State.heard
    rw [(congrArg Ring.rx begun.ring :), kept.rx, beq_iff_eq]
  have tLines : t.lines = u.scanChoose.lines.tick := by rw [passed.lines, begun.lines]
  have ports : b.ports = s.ports := begun.ports.trans kept.ports
  have samples : t.ports.samples = c.ports.samples := by
    rw [passed.ports, (sendFrame_inputs _ _).1]
  refine ⟨t, by rw [ht]; rfl, fun k => ?_, fun e => ⟨fun free => ?_, fun r here => ⟨fun far locked => ?_,
    fun still => ?_⟩⟩, fun i => ⟨fun free => ?_, ?_⟩, ?_, ?_⟩
  · rw [tContacts, mapTable_get]
    exact contact_sample _ _
  · rw [tRecords, mapTable_get, free]
    rfl
  · rw [tRecords, mapTable_get, here, Option.map_some, record_tick, if_pos ⟨(remote_iff r).mpr far, heard.mpr locked⟩]
    rfl
  · rw [tRecords, mapTable_get, here, Option.map_some, record_tick, if_neg]
    · rfl
    · rintro ⟨far, locked⟩
      exact still.elim (fun near => near ((remote_iff r).mp far)) (fun other => other (heard.mp locked))
  · rw [tGenerators, Alarm.advanceAll, mapTable_get, free]
    rfl
  · intro g here p silent asked n
    have period : g.period p = n := by
      change (if g.position = 0 then p.divider g.elapsed else g.divider) = _
      rw [divider_eq]
    have next : t.alarm.generators[i] = some (g.advance p) := by
      rw [tGenerators, Alarm.advanceAll, mapTable_get, here]
      rfl
    have silent_iff : p.silent = true ↔ silent := silent_iff p
    clear_value p n
    refine ⟨fun quiet => ⟨sample_silent (silent_iff.mpr quiet), ?_⟩, fun loud => ?_⟩
    · rw [next, advance_silent (silent_iff.mpr quiet)]
    · have sounds : p.silent = false := Bool.eq_false_iff.mpr fun quiet => loud (silent_iff.mp quiet)
      refine ⟨fun range => ?_, ?_⟩
      · rw [sample_sounding sounds range, period]
      · rw [next, advance_sounding sounds, period]
  · intro l next seen can chooses
    have measurable (x : Fin 32) : u.measurable x = true ↔ can x := measurable_iff u x
    have measurable_false (x : Fin 32) : u.measurable x = false ↔ ¬ can x := by
      rw [← measurable, Bool.not_eq_true]
    have still (rests : ¬ u.lines.scanner.chooses) : t.lines = l.tick := by rw [tLines, scanChoose_rest rests]
    refine ⟨fun j chooses range here before => ?_, fun chooses cannot => ?_, fun x at_ => ?_, fun at_ => ?_, fun at_ => ?_⟩
    · exact tLines.trans (scanChoose_found chooses range ((measurable _).mpr here)
        fun i less => (measurable_false _).mpr (before i less))
    · exact tLines.trans (scanChoose_none chooses fun j range => (measurable_false _).mpr (cannot j range))
    all_goals
      have at_u : u.lines.scanner = _ := at_
      rw [still (by rw [at_u, ScanState.chooses]; simp), Lines.tick, at_]
  · intro z x y at_ none_ in_ counts
    have roleSame (i : Fin 32) : b.ports.inputs[i] = s.ports.inputs[i] := by rw [ports]
    have absent (position : Fin 2) (no : none_ position) : b.senseInput z position = none :=
      (senseInput_none_iff b z position).mpr fun i => by rw [roleSame]; exact no i
    have present (position : Fin 2) (no : ¬ none_ position) : (b.senseInput z position).isSome = true := by
      rw [← Option.ne_none_iff_isSome]
      intro missing
      refine no fun i => ?_
      rw [← roleSame]
      exact (senseInput_none_iff b z position).mp missing i
    have found (position : Fin 2) (i : Fin 32) (here : at_ position i) : b.senseInput z position = some i :=
      senseInput_eq (by rw [roleSame]; exact here.1) fun j less => by rw [roleSame]; exact here.2 j less
    have measured : y = ({ x with ce := glide x.ce (Config.compensation x.k) } : ZoneTracker).measure t.ports.samples
        (b.senseInput z 0) (b.senseInput z 1) (b.audibleIn z || b.covered z) := by
      change t.trackers[z] = _
      rw [tTrackers, mapTable_get, glideAll_get, samples]
    clear_value x y
    obtain ⟨hist0, hist1⟩ := measure_hists (t := { x with ce := glide x.ce (Config.compensation x.k) })
      (samples := t.ports.samples) (in0 := b.senseInput z 0) (in1 := b.senseInput z 1)
      (freeze := b.audibleIn z || b.covered z)
    rw [← measured] at hist0 hist1
    refine ⟨fun no0 no1 => ?_, fun some_ => ?_, fun no0 => ?_, fun no1 => ?_, fun i here n => ?_, fun i here n => ?_⟩
    · rw [measured, absent 0 no0, absent 1 no1]
      rfl
    · have running : ((b.senseInput z 0).isSome || (b.senseInput z 1).isSome) = true := by
        rw [Bool.or_eq_true]
        by_cases no0 : none_ 0
        · exact .inr (present 1 fun no1 => some_ ⟨no0, no1⟩)
        · exact .inl (present 0 no0)
      rw [measured, ZoneTracker.measure, if_pos running, Bool.or_assoc]
      rfl
    · rw [hist0, absent 0 no0]
      rfl
    · rw [hist1, absent 1 no1]
      rfl
    · rw [hist0, found 0 i here]
      exact countBin_bins t.ports.samples x.hist0 i n
    · rw [hist1, found 1 i here]
      exact countBin_bins t.ports.samples x.hist1 i n

end

section
/-! One computation: the fields of it, the range of its samples, and the state it is formed in (R2, R64, R68, R103). -/

namespace Sys2Proof.Machine

/-! ### The fields of a computation -/

theorem compute_zone (c : State) (z : Fin 24) :
    c.compute.zones[z] = c.zoneSample c.compute.players c.alarm.generatorSamples z := by
  unfold State.compute
  exact ofFn_get _ _

theorem compute_speaker (c : State) (p : Fin 32) : c.compute.speakers[p] = c.speakerSample c.compute.zones p := by
  unfold State.compute
  exact ofFn_get _ _

theorem compute_none (c : State) : c.compute.noneOut = c.noneSample c.alarm.generatorSamples := by
  unfold State.compute
  rfl

theorem compute_player (c : State) (p : Fin 4) : c.compute.players[p] = c.clips.playerOut p := by
  unfold State.compute
  exact ofFn_get _ _

theorem compute_trunks (c : State) : c.compute.trunks = c.trunkSamples := by
  unfold State.compute
  rfl

/-! ### The range of samples -/

/-- A sample of the sample range. -/
def inRange (x : Int) : Prop := -8388607 ≤ x ∧ x ≤ 8388607

theorem zero_inRange : inRange 0 := by
  unfold inRange
  omega

theorem saturate_inRange (x : Int) : inRange (saturate x) := saturate_range x

theorem inputStage_inRange (f : PortFormat) (trim : Fin 4) (w : RawSample) : inRange (inputStage f trim w) :=
  saturate_inRange _

theorem playerSample_inRange (w : ClipWord) (trim : Nat) : inRange (playerSample w trim) := saturate_inRange _

theorem generatorSample_inRange (g : Generator) (p : PatternStep) : inRange (g.sample p) := by
  unfold Generator.sample
  split
  · exact zero_inRange
  · split <;> exact saturate_inRange _

/-- The sample of a player lies in the range, or is the marker of one that is no source (R103). -/
theorem playerOut_inRange (c : Clips) (p : Fin 4) : c.playerOut p = -8388608 ∨ inRange (c.playerOut p) := by
  unfold Clips.playerOut
  dsimp only
  split
  · exact .inl rfl
  · exact .inr zero_inRange
  · split
    · exact .inr (playerSample_inRange _ _)
    · exact .inr zero_inRange

theorem zoneSample_inRange (s : State) (players gens : Vector Int 4) (z : Fin 24) :
    inRange (s.zoneSample players gens z) := by
  unfold State.zoneSample
  split
  · exact saturate_inRange _
  · exact zoneOutput_range _ _ _ _ _ _ _

theorem noneSample_inRange (s : State) (gens : Vector Int 4) : inRange (s.noneSample gens) := by
  unfold State.noneSample
  split
  · split
    · exact saturate_inRange _
    · exact zero_inRange
  · exact zero_inRange

theorem speakerSample_inRange {s : State} {zones : Vector Int 24} (ranged : ∀ z : Fin 24, inRange zones[z])
    (p : Fin 32) : inRange (s.speakerSample zones p) := by
  have listened (l : Option (Fin 24)) : inRange (match l with
      | some z => zones[z]
      | none => 0) := by
    cases l with
    | none => exact zero_inRange
    | some z => exact ranged z
  unfold State.speakerSample
  split
  · exact zero_inRange
  · dsimp only
    split
    · exact listened _
    · split
      · split
        · split
          · exact listened _
          · exact saturate_inRange _
        · exact zero_inRange
      · exact listened _

theorem micSample_inRange {s : State} (ranged : ∀ i : Fin 32, inRange s.ports.samples[i]) (p : Fin 32) :
    inRange (s.micSample p) := by
  unfold State.micSample
  split
  · exact ranged _
  · exact zero_inRange

theorem trunkSamples_inRange {s : State} (ranged : ∀ i : Fin 32, inRange s.ports.samples[i]) :
    ∀ x ∈ s.trunkSamples, inRange x.2 := by
  intro x mem
  obtain ⟨c, -, rfl⟩ := List.mem_map.mp mem
  dsimp only
  cases c.stations.head? with
  | none => exact zero_inRange
  | some p => exact micSample_inRange ranged p

/-! ### The state a computation is formed in -/

theorem prepare_inRange (b : State) (frame : Vector RawSample 32) (i : Fin 32) :
    inRange (b.prepare frame).ports.samples[i] := by
  obtain ⟨-, -, -, -, -, -, -, -, -, samples⟩ := prepare_blocks b frame
  rw [samples, mapTable_get]
  exact inputStage_inRange _ _ _

end Sys2Proof.Machine

open Sys2Proof Sys2Proof.Machine

/-- Settles O23: every stage ends in the clamp, or is 0, or passes on a sample of the range. -/
theorem samplesStayInTheSampleRange : Obligations.SamplesStayInTheSampleRange := by
  refine ⟨inputStage_inRange, playerSample_inRange, generatorSample_inRange, fun s t frame contacts run => ?_⟩
  have period : cyclePeriod frame contacts s = t := Host.Outcome.next.inj run
  have passed := cyclePeriod_passed frame contacts s
  have ranged := prepare_inRange s.begun frame
  rw [period] at passed
  have recent := passed.recent
  generalize s.begun.prepare frame = c at recent ranged
  rw [recent]
  have zones (z : Fin 24) : inRange c.compute.zones[z] := by
    rw [compute_zone]
    exact zoneSample_inRange _ _ _ _
  refine ⟨zones, fun p => ?_, ?_, fun i => ?_, fun p => ?_, ?_⟩
  · rw [compute_speaker]
    exact speakerSample_inRange zones p
  · rw [compute_none]
    exact noneSample_inRange _ _
  · rw [compute_inputs]
    exact ranged i
  · rw [compute_player]
    exact playerOut_inRange _ _
  · rw [compute_trunks]
    exact trunkSamples_inRange ranged

end

section
/-! The mix of one computation: the duck step, what routes, pages and banks give a zone, and the tone of a winning record
(R53, R62 to R68, R79, R166, R167). -/

namespace Sys2Proof.Machine

/-! ### The state a computation is formed in -/

/-- What the mix of a computation reads is what the beginning of the period left, but for the input samples, the duck
factors and the applied factors. -/
structure Prepared (b c : State) : Prop where
  alarm : c.alarm = b.alarm
  pages : c.pages = b.pages
  icom : c.icom = b.icom
  feeds : c.feeds = b.feeds
  clips : c.clips = b.clips
  scene : c.scene = b.scene
  ring : c.ring = b.ring
  ctl : c.ctl = b.ctl
  mix : c.mix = { b.mix with duck := c.mix.duck }

/-- The target of a duck factor, by the winning record, its voice slot, and the page of the zone (R67, R167). -/
theorem duckTarget_eq (s : State) (z : Fin 24) : s.duckTarget z = match s.winner z with
    | some (_, r) =>
      (match r.voiceSlot with
        | some v => if s.tap v = -8388608 then 16384 else r.voiceFactor
        | none => 16384)
    | none => if (s.holder z).any Page.audible then ((s.mix.bank s.scene.active).fields[z]).depth else 16384 := by
  unfold State.duckTarget State.alarmTarget
  cases s.winner z <;> rfl

theorem duckTarget_congr {s t : State} (alarm : s.alarm = t.alarm) (ring : s.ring = t.ring) (pages : s.pages = t.pages)
    (mix : s.mix = t.mix) (scene : s.scene = t.scene) (z : Fin 24) : s.duckTarget z = t.duckTarget z := by
  unfold State.duckTarget State.winner State.alarmTarget State.tap State.audibleIn State.holder State.zoneFields
    State.activeBank
  rw [alarm, ring, pages, mix, scene]

theorem prepare_def (b : State) (frame : Vector RawSample 32) :
    b.prepare frame = ((b.takeInputs frame).glideAll).duckAll := by
  unfold State.prepare
  rfl

theorem duckAll_mix (s : State) : s.duckAll.mix = { s.mix with
    duck := mapTable
      (fun z d => duckStep (s.duckTarget z) (s.zoneFields z).attack (s.zoneFields z).release d) s.mix.duck } := by
  rw [State.duckAll, State.setMix_mix]

/-- The duck factors of a computation are one step from those of the computation before (R68). -/
theorem prepare_duck (b : State) (frame : Vector RawSample 32) : (b.prepare frame).mix = { b.mix with
    duck := mapTable
      (fun z d => duckStep (b.duckTarget z) (b.zoneFields z).attack (b.zoneFields z).release d) b.mix.duck } := by
  rw [prepare_def, duckAll_mix]
  have alarm : (b.takeInputs frame).glideAll.alarm = b.alarm := by simp only [State.glideAll, State.takeInputs,
    State.setTrackers_alarm, State.setPorts_alarm]
  have ring : (b.takeInputs frame).glideAll.ring = b.ring := by simp only [State.glideAll, State.takeInputs,
    State.setTrackers_ring, State.setPorts_ring]
  have pages : (b.takeInputs frame).glideAll.pages = b.pages := by simp only [State.glideAll, State.takeInputs,
    State.setTrackers_pages, State.setPorts_pages]
  have mix : (b.takeInputs frame).glideAll.mix = b.mix := by simp only [State.glideAll, State.takeInputs,
    State.setTrackers_mix, State.setPorts_mix]
  have scene : (b.takeInputs frame).glideAll.scene = b.scene := by simp only [State.glideAll, State.takeInputs,
    State.setTrackers_scene, State.setPorts_scene]
  have fields (z : Fin 24) : (b.takeInputs frame).glideAll.zoneFields z = b.zoneFields z := by
    unfold State.zoneFields State.activeBank
    rw [mix, scene]
  simp only [duckTarget_congr alarm ring pages mix scene, fields, mix]

theorem prepare_prepared (b : State) (frame : Vector RawSample 32) : Prepared b (b.prepare frame) := by
  obtain ⟨-, ring, ctl, -⟩ := prepare_blocks b frame
  obtain ⟨alarm, pages, icom, feeds, clips, scene, -⟩ := prepare_more b frame
  exact ⟨alarm, pages, icom, feeds, clips, scene, ring, ctl, by rw [prepare_duck]⟩

namespace Prepared

variable {b c : State} (h : Prepared b c)
include h

theorem winner (z : Fin 24) : c.winner z = b.winner z := by
  unfold State.winner
  rw [h.alarm]

theorem tap (x : Fin 64) : c.tap x = b.tap x := by
  unfold State.tap
  rw [h.ring]

theorem holder (z : Fin 24) : c.holder z = b.holder z := by
  unfold State.holder
  rw [h.pages]

theorem bank (id : BankId) : c.mix.bank id = b.mix.bank id := by
  rw [h.mix]
  cases id <;> rfl

theorem zoneLocal : c.mix.zoneLocal = b.mix.zoneLocal := by rw [h.mix]

theorem covered (z : Fin 24) : c.covered z = b.covered z := by
  unfold State.covered
  rw [h.alarm]

theorem voice (r : AlarmRec) : c.voice r = b.voice r := by
  unfold State.voice
  simp only [h.tap]

end Prepared

/-! ### The terms of a zone -/

theorem trimFactor_eq (n : Nat) :
    Config.trimFactor n = [16384, 13785, 11599, 9759, 8211, 6909, 5813, 4891, 4115].getD n 4115 := by
  match n with
  | 0 | 1 | 2 | 3 | 4 | 5 | 6 | 7 | 8 => rfl
  | n + 9 => rfl

theorem compensation_eq (n : Nat) :
    Config.compensation n = [16384, 19472, 23143, 27505, 32690, 38853, 46176, 54881, 65226].getD n 65226 := by
  match n with
  | 0 | 1 | 2 | 3 | 4 | 5 | 6 | 7 | 8 => rfl
  | n + 9 => rfl

theorem orSilence_eq (x : Int) : orSilence x = if x = -8388608 then 0 else x := rfl

theorem orSilence_inRange {x : Int} (h : inRange x) : orSilence x = x := by
  rw [orSilence_eq, if_neg]
  unfold inRange at h
  omega

theorem feedSample_eq (s : State) (f : Fin 4) : s.feedSample f = match (s.feeds[f]).state with
    | .onMain => s.tap (s.feeds[f]).main
    | .onBackup => s.tap (s.feeds[f]).backup
    | .bothLost => 0 := by
  cases state : (s.feeds[f]).state <;> simp only [State.feedSample, state]

/-- The sample of a page, by its phase and its source (R62, R119). -/
theorem pageSample_eq (s : State) (players : Vector Int 4) (p : Page) : s.pageSample players p =
    if p.phase = .chime then (p.player.map fun x => players[x]).getD 0 else match p.source with
      | .clips _ => (p.player.map fun x => players[x]).getD 0
      | .liveSlot x => s.tap x
      | .liveInput i => s.inputSample i := by
  unfold State.pageSample
  dsimp only
  cases p.phase <;> cases p.source <;> cases p.player <;> rfl

theorem blend_eq (t i : Nat) (x y : Int) : blend t i x y =
    (2 * (x * ((t - i : Nat) : Int) + y * (i : Int)) + (t : Int)) / (2 * (t : Int)) := by
  unfold blend roundDivBy
  rw [Nat.cast_mul]
  rfl

theorem zoneOutput_eq (p s a : Int) (d tk ce : Nat) (m : Int) : zoneOutput p s a d tk ce m =
    max (-8388607) (min 8388607 ((((p * ((((d * tk : Nat) : Int) + 8192) / 16384) + 134217728) / 268435456 +
      (s + 8192) / 16384 + (a * (ce : Int) + 134217728) / 268435456) * m + 8192) / 16384)) := rfl

theorem alarmLevel_eq (cls : AlarmClass) (level : Nat) :
    alarmLevel cls level = ((if cls = .test then (level * 4096 + 8192) / 16384 else level : Nat) : Int) := by
  cases cls with
  | test =>
    change (((level * 4096 : Nat) : Int) + 8192) / 16384 = _
    rw [if_pos rfl]
    omega
  | _ => rfl

theorem duckStep_eq (target attack release d : Nat) :
    (target < d → duckStep target attack release d = max target (d - attack)) ∧
    (d < target → duckStep target attack release d = min target (d + release)) ∧
    (d = target → duckStep target attack release d = d) := by
  unfold duckStep
  refine ⟨fun above => if_pos above, fun below => ?_, fun same => ?_⟩
  · rw [if_neg (by omega), if_pos below]
  · rw [if_neg (by omega), if_neg (by omega)]

theorem glide_eq (ce factor : Nat) : (ce < factor → glide ce factor = min factor (ce + 16)) ∧
    (factor < ce → glide ce factor = max factor (ce - 16)) ∧ (ce = factor → glide ce factor = ce) := by
  unfold glide
  refine ⟨fun below => if_pos below, fun above => ?_, fun same => ?_⟩
  · rw [if_neg (by omega), if_pos above]
  · rw [if_neg (by omega), if_neg (by omega)]

/-! ### The tone of a record -/

/-- The generator that an entry holds. -/
def Alarm.generatorOf (a : Alarm) (e : Fin 8) : Option (Fin 4) :=
  (indices 4).find? (fun i => (a.generators[i]).any (fun g => g.entry == e))

theorem tone_eq (a : Alarm) (samples : Vector Int 4) (e : Fin 8) : a.tone samples e = match a.generatorOf e with
    | some i => samples[i]
    | none => ((a.winners.head?.bind a.generatorOf).map (fun i => samples[i])).getD 0 := by
  unfold Alarm.tone
  change (match a.generatorOf e with | some i => _ | none => _) = _
  cases a.generatorOf e <;> rfl

theorem generatorOf_eq {s : State} (ok : s.alarmOk) {i : Fin 4} {g : Generator}
    (here : s.alarm.generators[i] = some g) : s.alarm.generatorOf g.entry = some i := by
  obtain ⟨-, -, -, -, apart⟩ := ok
  refine (find_indices_iff _ i).mpr ⟨?_, fun j less => ?_⟩
  · rw [here]
    exact beq_self_eq_true _
  · cases other : s.alarm.generators[j] with
    | none => rfl
    | some x =>
      refine beq_eq_false_iff_ne.mpr fun same => ?_
      exact absurd (apart j i x g other here same) (Fin.ne_of_lt less)

theorem generatorOf_none {a : Alarm} {e : Fin 8}
    (free : ∀ (j : Fin 4) (x : Generator), a.generators[j] = some x → x.entry ≠ e) : a.generatorOf e = none := by
  refine List.find?_eq_none.mpr fun j _ held => ?_
  rw [Option.any_eq_true] at held
  obtain ⟨x, here, entry⟩ := held
  exact free j x here (beq_iff_eq.mp entry)

/-- The first-ranked winning record. -/
theorem winners_head {s : State} (ok : s.alarmOk) {h : Fin 8} (wins : s.alarm.wins h)
    (first : ∀ f : Fin 8, s.alarm.wins f → f ≠ h → s.alarm.above h f) : s.alarm.winners.head? = some h := by
  obtain ⟨nodup, order, covered, -, -⟩ := ok
  have present (e : Fin 8) (wins : s.alarm.wins e) : s.alarm.records[e] ≠ none := by
    obtain ⟨z, at_⟩ := wins
    obtain ⟨r, here, -⟩ := covered z e at_
    rw [here]
    exact Option.some_ne_none r
  rw [head_eq_some_iff above_asymm (winners_above nodup order)]
  simp only [mem_winners_iff order present]
  exact ⟨wins, first⟩

/-- The tone of a record is the sample of the generator it holds, or shares with the first-ranked record (R166). -/
theorem tone_held {s : State} (ok : s.alarmOk) {e h : Fin 8} {i : Fin 4} {g : Generator}
    (held : h = e ∨ ((∀ (j : Fin 4) (x : Generator), s.alarm.generators[j] = some x → x.entry ≠ e) ∧ s.alarm.wins h ∧
      ∀ f : Fin 8, s.alarm.wins f → f ≠ h → s.alarm.above h f))
    (here : s.alarm.generators[i] = some g) (entry : g.entry = h) :
    s.alarm.tone s.alarm.generatorSamples e = g.sample (s.alarm.stepAt g.pattern g.step) := by
  have of := generatorOf_eq ok here
  rw [entry] at of
  have sample : s.alarm.generatorSamples[i] = g.sample (s.alarm.stepAt g.pattern g.step) := by
    rw [Alarm.generatorSamples, mapTable_get, here]
  rw [tone_eq]
  rcases held with rfl | ⟨free, wins, first⟩
  · rw [of]
    exact sample
  · rw [generatorOf_none free, winners_head ok wins first, Option.bind_some, of]
    exact sample

end Sys2Proof.Machine

open Sys2Proof Sys2Proof.Machine

/-- Settles O24: the duck and the applied factor step, then each term of the zone output in its place. -/
theorem computationsFollowTheMixRules : Obligations.ComputationsFollowTheMixRules := by
  intro s frame contacts b
  have hb : b = s.begun := rfl
  clear_value b
  obtain ⟨t, ht⟩ : ∃ t, t = cyclePeriod frame contacts s := ⟨_, rfl⟩
  obtain ⟨recent, -, mix, -, factors⟩ := cyclePeriod_computed frame contacts s
  have prepared := prepare_prepared s.begun frame
  have duck := prepare_duck s.begun frame
  have ranged := prepare_inRange s.begun frame
  obtain ⟨-, -, -, -, -, -, trackers⟩ := prepare_more s.begun frame
  obtain ⟨c, hc⟩ : ∃ c, c = s.begun.prepare frame := ⟨_, rfl⟩
  rw [← ht, ← hc] at recent mix
  have ces (z : Fin 24) : (t.trackers[z]).ce = (c.trackers[z]).ce := by
    rw [ht, hc]
    exact factors z
  rw [← hc, ← hb] at prepared duck trackers
  rw [← hc] at ranged
  refine ⟨t, by rw [ht]; rfl, fun z => ?_⟩
  intro active edit f quiet clamped target d factor ce
  have ceT : (t.trackers[z]).ce = glide ce factor := by
    rw [ces, trackers, glideAll_get, compensation_eq]
  have targetB : b.duckTarget z = target := duckTarget_eq b z
  have duckT : t.mix.duck[z] = duckStep target f.attack f.release d := by
    rw [mix, duck, mapTable_get, targetB]
    rfl
  have zoneT : t.recent.zones[z] = c.zoneSample t.recent.players c.alarm.generatorSamples z := by
    rw [recent, compute_zone]
  have inputsT : t.recent.inputs = c.ports.samples := by rw [recent, compute_inputs]
  have ceC : (c.trackers[z]).ce = (t.trackers[z]).ce := (ces z).symm
  obtain ⟨duckDown, duckUp, duckStay⟩ := duckStep_eq target f.attack f.release d
  obtain ⟨ceUp, ceDown, ceStay⟩ := glide_eq ce factor
  rw [← duckT] at duckDown duckUp duckStay
  rw [← ceT] at ceUp ceDown ceStay
  refine ⟨duckDown, duckUp, duckStay, ceUp, ceDown, ceStay, fun uncovered => ?_, ?_⟩
  · intro value sum mixed played page a tk dt pm sm am m
    have valueC (x : RouteSource) : c.routeSample x = value x := by
      cases x with
      | ringSlot k => exact congrArg quiet (prepared.tap k)
      | localInput i =>
        change orSilence c.ports.samples[i] = _
        rw [orSilence_inRange (ranged i), ← inputsT]
      | feed p =>
        change orSilence (c.feedSample p) = _
        rw [feedSample_eq, prepared.feeds, prepared.tap, prepared.tap]
        simp only [value]
        cases (b.feeds[p]).state <;> rfl
    have sumC (x : Bank) (role : RouteRole) : c.routeSum x z role = sum role x := by
      unfold State.routeSum
      simp only [valueC, sum]
    have mixedC (g : Bank → Int) : c.blended g = mixed g := by
      unfold State.blended State.activeBank State.editBank
      rw [blend_eq, prepared.scene, prepared.bank, prepared.bank]
    have pageC (p : Page) : c.pageSample t.recent.players p = page p := by
      rw [pageSample_eq]
      unfold State.inputSample
      rw [← inputsT]
      simp only [prepared.tap, page, played] <;> rfl
    have announcedC : c.announcement t.recent.players z = a := by
      unfold State.announcement
      simp only [prepared.holder, pageC, a]
      cases b.holder z <;> rfl
    have sumOf (role : RouteRole) : (fun x => c.routeSum x z role) = sum role := funext fun x => sumC x role
    rw [zoneT, State.zoneSample, prepared.winner, uncovered]
    change c.mixedSample _ z = _
    rw [State.mixedSample, sumOf, sumOf, mixedC, mixedC, mixedC, announcedC, ceC, prepared.zoneLocal, ← mix,
      trimFactor_eq, zoneOutput_eq]
  · intro e r h i g ok wins held here entry tone voice full level
    rw [zoneT, State.zoneSample, prepared.winner, wins]
    change c.alarmSample _ z e r = _
    rw [State.alarmSample, prepared.alarm, tone_held ok held here entry, prepared.voice, prepared.zoneLocal, ← mix,
      alarmLevel_eq]
    rfl

end

section
/-! The speakers, the NONE output and the trunk calls of one computation (R146, R147, R168). -/

namespace Sys2Proof.Machine

/-! ### Speakers -/

/-- The output of the zone that a station listens to. -/
def listened (zones : Vector Int 24) (l : Option (Fin 24)) : Int :=
  match l with
  | some z => zones[z]
  | none => 0

theorem speakerSample_none {s : State} {zones : Vector Int 24} {p : Fin 32} (free : s.icom.table[p] = none) :
    s.speakerSample zones p = 0 := by
  rw [State.speakerSample, free]

theorem speakerSample_entry {s : State} {zones : Vector Int 24} {p : Fin 32} {e : Station}
    (entry : s.icom.table[p] = some e) : s.speakerSample zones p =
      if e.listen.any s.covered then listened zones e.listen
      else
        match s.stationState p, s.callOf p with
        | .talking, some c =>
          if c.state = .connected then
            if e.listen.any (s.breaksIn e) then listened zones e.listen
            else withCallGain s.ctl.settings.callGain (s.callAudio c p)
          else 0
        | _, _ => listened zones e.listen := by
  rw [State.speakerSample, entry] <;> rfl

section Speaker

variable {s : State} {zones : Vector Int 24} {p : Fin 32} {e : Station} (entry : s.icom.table[p] = some e)
include entry

theorem speaker_underAlarm (covered : e.listen.any s.covered = true) :
    s.speakerSample zones p = listened zones e.listen := by
  rw [speakerSample_entry entry, if_pos covered]

theorem speaker_notTalking (other : s.stationState p ≠ .talking) :
    s.speakerSample zones p = listened zones e.listen := by
  rw [speakerSample_entry entry]
  split
  · rfl
  · split
    · rename_i talking _
      exact absurd talking other
    · rfl

theorem speaker_talking {c : Call} (uncovered : e.listen.any s.covered = false) (talking : s.stationState p = .talking)
    (call : s.callOf p = some c) : s.speakerSample zones p =
      if c.state = .connected then
        if e.listen.any (s.breaksIn e) then listened zones e.listen
        else withCallGain s.ctl.settings.callGain (s.callAudio c p)
      else 0 := by
  rw [speakerSample_entry entry, uncovered, talking, call]
  rfl

end Speaker

theorem withCallGain_eq (gain : Nat) (x : Int) :
    withCallGain gain x = max (-8388607) (min 8388607 ((x * (gain : Int) + 8192) / 16384)) := rfl

theorem callAudio_local {s : State} {c : Call} {x y : Fin 32} (parties : c.parties = .loc x y) (p : Fin 32) :
    s.callAudio c p = s.micSample (if p = x then y else x) := by
  rw [State.callAudio, parties]
  dsimp only
  split <;> rfl

theorem callAudio_trunk {s : State} {c : Call} (trunk : ∀ x y, c.parties ≠ .loc x y) (p : Fin 32) :
    s.callAudio c p = (c.rx.map (fun t => orSilence (s.tap t))).getD 0 := by
  unfold State.callAudio
  cases parties : c.parties with
  | loc x y => exact absurd parties (trunk x y)
  | trunkOut x y => rfl
  | trunkIn x y => rfl

theorem trunkSample_eq (s : State) (c : Call) : (c.stations.head?.map s.micSample).getD 0 = match c.parties with
    | .loc x _ => s.micSample x
    | .trunkOut x _ => s.micSample x
    | .trunkIn x _ => s.micSample x := by
  unfold Call.stations
  cases c.parties <;> rfl

/-! ### The NONE output -/

/-- A SOUNDING GENERAL record of an entry. -/
def Alarm.general (a : Alarm) (e : Fin 8) (r : AlarmRec) : Prop :=
  a.records[e] = some r ∧ r.sounding = true ∧ r.cls = .general

theorem earliestGeneral_eq (a : Alarm) : a.earliestGeneral = ((a.startOrder.filter (fun e =>
    (a.records[e]).any (fun r => r.sounding && r.cls == .general))).head?).bind
      (fun e => (a.records[e]).map (fun r => (e, r))) := by
  rw [Alarm.earliestGeneral, List.find?_filterMap, List.head?_filter]
  simp only [Option.any_map]

theorem earliestGeneral_none {a : Alarm} (absent : ∀ e r, ¬ a.general e r) : a.earliestGeneral = none := by
  have empty : a.startOrder.filter (fun e => (a.records[e]).any (fun r => r.sounding && r.cls == .general)) = [] := by
    refine List.filter_eq_nil_iff.mpr fun e _ held => ?_
    simp only [Option.any_eq_true, Bool.and_eq_true, beq_iff_eq] at held
    obtain ⟨r, here, sounding, cls⟩ := held
    exact absent e r ⟨here, sounding, cls⟩
  rw [earliestGeneral_eq, empty]
  rfl

/-- Of the GENERAL records, the one that ranks above every other has started first (R168). -/
theorem earliestGeneral_first {s : State} (ok : s.alarmOk) {e : Fin 8} {r : AlarmRec} (here : s.alarm.general e r)
    (first : ∀ f q, s.alarm.general f q → f ≠ e → s.alarm.above e f) : s.alarm.earliestGeneral = some (e, r) := by
  obtain ⟨nodup, order, -⟩ := ok
  obtain ⟨record, sounding, cls⟩ := here
  have picked : (s.alarm.records[e]).any (fun r => r.sounding && r.cls == .general) = true := by
    rw [record, Option.any_some, sounding, cls]
    rfl
  have head : (s.alarm.startOrder.filter (fun e =>
      (s.alarm.records[e]).any (fun r => r.sounding && r.cls == .general))).head? = some e := by
    rw [head_eq_some_iff (fun less more => Nat.lt_asymm less more)
      ((nodup_pairwise_idxOf nodup).sublist List.filter_sublist)]
    refine ⟨List.mem_filter.mpr ⟨(order e).mpr (by rw [record]; exact Option.some_ne_none r), picked⟩,
      fun f mem other => ?_⟩
    obtain ⟨-, held⟩ := List.mem_filter.mp mem
    simp only [Option.any_eq_true, Bool.and_eq_true, beq_iff_eq] at held
    obtain ⟨q, recordF, soundingF, clsF⟩ := held
    obtain ⟨r', q', recordE', recordF', above⟩ := first f q ⟨recordF, soundingF, clsF⟩ other
    obtain rfl : r = r' := Option.some.inj (record.symm.trans recordE')
    obtain rfl : q = q' := Option.some.inj (recordF.symm.trans recordF')
    rw [cls, clsF] at above
    exact above.elim (fun less => absurd less (Nat.lt_irrefl _)) And.right
  rw [earliestGeneral_eq, head, Option.bind_some, record]
  rfl

theorem firstZone_eq {zs : ZoneSet} {z : Fin 24} (here : zs.getLsbD z.val = true)
    (before : ∀ y < z, zs.getLsbD y.val = false) : firstZone zs = some z :=
  (find_indices_iff (hasZone zs) z).mpr ⟨here, before⟩

end Sys2Proof.Machine

open Sys2Proof Sys2Proof.Machine

/-- Settles O25: each output from the case of the statement that holds of it. -/
theorem speakersNoneOutputAndTrunksAreFormed : Obligations.SpeakersNoneOutputAndTrunksAreFormed := by
  intro s frame contacts b
  have hb : b = s.begun := rfl
  clear_value b
  obtain ⟨t, ht⟩ : ∃ t, t = cyclePeriod frame contacts s := ⟨_, rfl⟩
  have passed := cyclePeriod_passed frame contacts s
  have prepared := prepare_prepared s.begun frame
  obtain ⟨c, hc⟩ : ∃ c, c = s.begun.prepare frame := ⟨_, rfl⟩
  rw [← ht, ← hc, ← hb] at passed
  rw [← hc, ← hb] at prepared
  have recent := passed.recent
  have duck : c.mix = t.mix := passed.mix.symm
  have settings : c.ctl.settings = t.ctl.settings := by rw [prepared.ctl, passed.settings]
  refine ⟨t, by rw [ht]; rfl, ?_⟩
  intro k quiet clamped mic gained
  have zones : k.zones = c.compute.zones := congrArg Computation.zones recent
  have speakers (p : Fin 32) : k.speakers[p] = c.speakerSample k.zones p := by
    rw [zones, ← compute_speaker, ← recent]
  have inputs : k.inputs = c.ports.samples := (congrArg Computation.inputs recent).trans (compute_inputs c)
  have micC (p : Fin 32) : c.micSample p = mic p := by
    unfold State.micSample State.inputSample
    rw [prepared.icom, ← inputs] <;> rfl
  have tableC (p : Fin 32) : c.icom.table[p] = b.icom.table[p] := by rw [prepared.icom]
  have coveredC : c.covered = b.covered := funext prepared.covered
  have stateC (p : Fin 32) : c.stationState p = b.stationState p := by
    unfold State.stationState State.callOf
    rw [prepared.icom]
  have callC (p : Fin 32) : c.callOf p = b.callOf p := by
    unfold State.callOf
    rw [prepared.icom]
  refine ⟨fun p free => ?_, ?_, ?_, ?_⟩
  · rw [speakers, speakerSample_none ((tableC p).trans free)]
  · intro p e entry zl underAlarm brokenIn
    have entryC : c.icom.table[p] = some e := (tableC p).trans entry
    have breaksC : e.listen.any (c.breaksIn e) = brokenIn := by
      unfold State.breaksIn
      simp only [prepared.holder]
      rfl
    refine ⟨fun covered => ?_, fun other => ?_, fun x uncovered talking call => ?_⟩
    · rw [speakers]
      exact speaker_underAlarm entryC (by rw [coveredC]; exact covered)
    · rw [speakers]
      exact speaker_notTalking entryC (by rw [stateC]; exact other)
    · have sample := speaker_talking (zones := k.zones) entryC (by rw [coveredC]; exact uncovered)
        ((stateC p).trans talking) ((callC p).trans call)
      rw [← speakers, breaksC, withCallGain_eq, settings] at sample
      refine ⟨fun waiting => ?_, fun connected broken => ?_, fun connected whole => ⟨fun y z parties => ?_, fun trunk => ?_⟩⟩
      · rw [sample, if_neg waiting]
      · rw [sample, if_pos connected, if_pos broken]
        rfl
      · rw [sample, if_pos connected, if_neg (by rw [whole]; exact Bool.false_ne_true), callAudio_local parties, micC]
      · rw [sample, if_pos connected, if_neg (by rw [whole]; exact Bool.false_ne_true), callAudio_trunk trunk]
        simp only [prepared.tap]
        rfl
  · intro general
    have noneOut : k.noneOut = c.noneSample b.alarm.generatorSamples := by
      rw [← prepared.alarm, ← compute_none, ← recent]
    refine ⟨fun absent => ?_, fun e r z i g ok here first zone lowest held entry => ?_⟩
    · rw [noneOut, State.noneSample, prepared.alarm, earliestGeneral_none absent]
    · intro tone voice
      rw [noneOut, State.noneSample, prepared.alarm, earliestGeneral_first ok here first]
      dsimp only
      rw [firstZone_eq zone lowest]
      dsimp only
      rw [tone_held ok (.inl rfl) held entry, prepared.voice, duck]
      rfl
  · have trunks : k.trunks = c.trunkSamples := (congrArg Computation.trunks recent).trans (compute_trunks c)
    rw [trunks, State.trunkSamples, prepared.icom]
    refine List.map_congr_left fun x _ => ?_
    rw [trunkSample_eq]
    cases x.parties <;> exact congrArg (Prod.mk x.id) (micC _)

end

section
/-! Feed pairs, the capture unit and players through a period (R85, R87, R89, R97, R100 to R104). -/

namespace Sys2Proof.Machine

/-! ### Events once posted -/

/-- The record stands in the event list, or the list has overflowed. -/
def State.noted (s : State) (e : EventRec) : Prop := e ∈ s.ctl.events ∨ s.ctl.overflow = true

/-- From one state to another the event list only grows, and an overflow stays. -/
structure Noted (s t : State) : Prop where
  events : s.ctl.events ⊆ t.ctl.events
  overflow : s.ctl.overflow = true → t.ctl.overflow = true

theorem Noted.refl (s : State) : Noted s s := ⟨fun _ h => h, id⟩

theorem Noted.of_eq {s t : State} (h : t.ctl = s.ctl) : Noted s t := by
  constructor <;> rw [h]
  · exact fun _ h => h
  · exact id

theorem Noted.trans {s t u : State} (h : Noted s t) (k : Noted t u) : Noted s u :=
  ⟨List.Subset.trans h.events k.events, fun o => k.overflow (h.overflow o)⟩

theorem Noted.noted {s t : State} (h : Noted s t) {e : EventRec} (k : s.noted e) : t.noted e :=
  k.imp (fun mem => h.events mem) h.overflow

theorem post_ctl_noted (s : State) (kind : EventKind) (n : Word16) (d : BitVec 4) :
    Noted s (s.post kind n d) ∧ (s.post kind n d).noted
      { kind := kind, stamp := s.ring.cycleNumber.extractLsb' 9 7, subject := n, detail := d } := by
  unfold State.noted
  constructor
  · constructor <;> rw [post_ctl] <;> split
    · exact List.subset_append_left _ _
    · exact fun _ h => h
    · exact id
    · exact fun _ => rfl
  · rw [post_ctl]
    split
    · exact .inl (List.mem_append_right _ (List.mem_singleton.mpr rfl))
    · exact .inr rfl

theorem finish_noted (s : State) : Noted s s.finish := by
  unfold State.finish State.actOnHanded
  split
  · exact .of_eq rfl
  · refine ⟨(handScheduler_pagesFrame ((s.setScene s.scene.advance).setScene
      { (s.setScene s.scene.advance).scene with handed := 0 })).events.subset, fun h => ?_⟩
    exact revoke_overflow (s := (s.setScene s.scene.advance).setScene
      { (s.setScene s.scene.advance).scene with handed := 0 }) h

/-! ### A step of one index -/

/-- A step for each index passes through a state just before the step of an index; the others keep what they keep. -/
theorem forEach_at {R : State → State → Prop} (refl : ∀ s, R s s) (trans : ∀ {s t u}, R s t → R t u → R s u) {n : Nat}
    {f : Fin n → State → State} (i : Fin n) (others : ∀ j s, j ≠ i → R s (f j s)) (s : State) :
    ∃ v, R s v ∧ R (f i v) (forEach n f s) := by
  obtain ⟨before, after, split⟩ := List.append_of_mem (mem_indices i)
  have nodup := indices_nodup n
  rw [split, List.nodup_middle, List.nodup_cons, List.mem_append, not_or] at nodup
  obtain ⟨⟨notBefore, notAfter⟩, -⟩ := nodup
  have folds (l : List (Fin n)) (absent : i ∉ l) (s : State) : R s (l.foldl (fun s i => f i s) s) := by
    induction l generalizing s with
    | nil => exact refl s
    | cons j l ih =>
      rw [List.mem_cons, not_or] at absent
      exact trans (others j s (Ne.symm absent.1)) (ih absent.2 _)
  refine ⟨before.foldl (fun s i => f i s) s, folds before notBefore s, ?_⟩
  unfold forEach
  rw [split, List.foldl_append, List.foldl_cons]
  exact folds after notAfter _

/-! ### Feed pairs -/

theorem feedTick_get (s : State) (f : Fin 4) : s.feedTick.feeds[f] =
    ((s.feeds[f]).count (s.mainEmpty s.feeds[f]) (s.backupEmpty s.feeds[f])).compare (s.tap (s.feeds[f]).main)
      (s.tap (s.feeds[f]).backup) := by
  unfold State.feedTick
  rw [State.setFeeds_feeds, mapTable_get]

theorem feed_counted (x : Feed) (main backup : Int) :
    (x.count (main == -8388608) (backup == -8388608)).compare main backup =
      { x with
        selectedEmpty := match x.state with
          | .onMain => runOf x.selectedEmpty (main == -8388608)
          | .onBackup => runOf x.selectedEmpty (backup == -8388608)
          | .bothLost => x.selectedEmpty
        bothEmpty := runOf x.bothEmpty (main == -8388608 && backup == -8388608)
        mainPresent := runOf x.mainPresent (!(main == -8388608))
        qualifies := x.qualifies && !(main == -8388608) && !(backup == -8388608)
        blockCount :=
          if (main == -8388608) = false ∧ (backup == -8388608) = false ∧
              (x.tolerance : Int) < max (main - backup) (backup - main)
            then x.blockCount + 1 else x.blockCount
        blockPos := if x.blockPos < 480 then x.blockPos + 1 else x.blockPos
        blockDone := x.blockDone || decide (480 ≤ x.blockPos) } := by
  have apart : x.tolerance < (main - backup).natAbs ↔ (x.tolerance : Int) < max (main - backup) (backup - main) := by
    omega
  have counts : (!(main == Config.emptyMarker || backup == Config.emptyMarker) &&
      decide (x.tolerance < (main - backup).natAbs)) = true ↔ (main == -8388608) = false ∧ (backup == -8388608) = false ∧
        (x.tolerance : Int) < max (main - backup) (backup - main) := by
    rw [Bool.and_eq_true, Bool.not_eq_true', Bool.or_eq_false_iff, decide_eq_true_eq, apart, and_assoc]
    rfl
  unfold Feed.compare Feed.count
  dsimp only
  rw [if_congr counts rfl rfl, Bool.not_or, ← Bool.and_assoc] <;> rfl

/-- Of one pair nothing has changed, nor of the ring; the event list has only grown. -/
structure FeedStill (f : Fin 4) (s t : State) : Prop where
  feed : t.feeds[f] = s.feeds[f]
  ring : t.ring = s.ring
  noted : Noted s t

theorem FeedStill.refl (f : Fin 4) (s : State) : FeedStill f s s := ⟨rfl, rfl, .refl s⟩

theorem FeedStill.trans {f : Fin 4} {s t u : State} (h : FeedStill f s t) (k : FeedStill f t u) : FeedStill f s u :=
  ⟨k.feed.trans h.feed, k.ring.trans h.ring, h.noted.trans k.noted⟩

/-- A pair in a state with its runs at 0 (R85). -/
def Feed.changed (x : Feed) (target : FeedState) : Feed :=
  { x with state := target, selectedEmpty := 0, bothEmpty := 0, mainPresent := 0 }

theorem changeFeed_still (s : State) {f g : Fin 4} (other : g ≠ f) (target : FeedState) :
    FeedStill f s (s.changeFeed g target) := by
  unfold State.changeFeed
  refine ⟨put_get_ne _ _ _ _ (Ne.symm other), rfl, ?_⟩
  refine Noted.trans (t := s.setFeed g ((s.feeds[g]).changed target)) (.of_eq rfl) ?_
  exact (post_ctl_noted _ _ _ _).1

theorem feedRecovery_still (s : State) {f g : Fin 4} (other : g ≠ f) : FeedStill f s (s.feedRecovery g) := by
  unfold State.feedRecovery
  dsimp only
  split
  · split
    · exact changeFeed_still s other _
    · split
      · exact changeFeed_still s other _
      · exact .refl f s
  · exact .refl f s

theorem changeFeed_changed (s : State) (f : Fin 4) (target : FeedState) :
    (s.changeFeed f target).feeds[f] = (s.feeds[f]).changed target ∧ (s.changeFeed f target).noted
      { kind := .feedChanged, stamp := s.ring.cycleNumber.extractLsb' 9 7, subject := word f.val
        detail := target.code } := by
  refine ⟨?_, (post_ctl_noted _ _ _ _).2⟩
  exact put_get_self _ _ _

/-- What becomes of one pair when every pair may recover (R87). -/
theorem feedRecoveries_at (g : State) (f : Fin 4) :
    let x := g.feeds[f]
    let t := forEach 4 (fun f s => s.feedRecovery f) g
    let posted (d : BitVec 4) : Prop := t.noted
      { kind := .feedChanged, stamp := g.ring.cycleNumber.extractLsb' 9 7, subject := word f.val, detail := d }
    (x.state ≠ .bothLost ∨ (g.mainEmpty x = true ∧ g.backupEmpty x = true) → t.feeds[f] = x) ∧
    (x.state = .bothLost → g.mainEmpty x = false → t.feeds[f] = x.changed .onMain ∧ posted 1) ∧
    (x.state = .bothLost → g.mainEmpty x = true → g.backupEmpty x = false →
      t.feeds[f] = x.changed .onBackup ∧ posted 2) := by
  intro x t posted
  obtain ⟨v, before, after⟩ := forEach_at (R := FeedStill f) (FeedStill.refl f) FeedStill.trans
    (f := fun f s => s.feedRecovery f) f (fun j s other => feedRecovery_still s other) g
  have feed : t.feeds[f] = (v.feedRecovery f).feeds[f] := after.feed
  have noted {e : EventRec} : (v.feedRecovery f).noted e → t.noted e := after.noted.noted
  have same : v.feeds[f] = x := before.feed
  have mainSame : v.mainEmpty x = g.mainEmpty x := by
    unfold State.mainEmpty State.tap
    rw [before.ring]
  have backupSame : v.backupEmpty x = g.backupEmpty x := by
    unfold State.backupEmpty State.tap
    rw [before.ring]
  have step : v.feedRecovery f = if x.state = .bothLost then
      if g.mainEmpty x = false then v.changeFeed f .onMain
      else if g.backupEmpty x = false then v.changeFeed f .onBackup else v
      else v := by
    unfold State.feedRecovery
    dsimp only
    rw [same, mainSame, backupSame]
  have back (target : FeedState) (changed : v.feedRecovery f = v.changeFeed f target) :
      t.feeds[f] = x.changed target ∧ posted target.code := by
    obtain ⟨pair, post⟩ := changeFeed_changed v f target
    rw [before.ring, ← changed] at post
    rw [← changed, same] at pair
    exact ⟨feed.trans pair, noted post⟩
  refine ⟨fun still => ?_, fun lost present => ?_, fun lost empty present => ?_⟩
  · have stays : v.feedRecovery f = v := by
      rw [step]
      split
      · rename_i lost
        obtain ⟨main, backup⟩ := still.resolve_left fun other => other lost
        rw [if_neg (by rw [main]; decide), if_neg (by rw [backup]; decide)]
      · rfl
    rw [feed, stays, same]
  · exact back .onMain (by rw [step, if_pos lost, if_pos present])
  · exact back .onBackup (by rw [step, if_pos lost, if_neg (by rw [empty]; decide), if_pos present])

/-! ### The capture unit -/

theorem capture_store (c : Capture) (start : Nat) (x : Int) : c.store start x =
    if 256 ≤ c.buffer.length then c
    else { c with
      buffer := c.buffer ++ [(start + c.stored,
        if x = -8388608 then 0 else BitVec.ofInt 16 (max (-32767) (min 32767 ((x + 128) / 256))))]
      stored := c.stored + 1
      heard := c.heard || decide (x ≠ -8388608)
      emptyRun := if x = -8388608 ∧ c.heard = true then c.emptyRun + 1 else 0 } := by
  unfold Capture.store Config.emptyMarker
  split
  · rfl
  · by_cases empty : x = -8388608
    · rw [if_pos empty, if_pos empty]
      simp [empty]
    · rw [if_neg empty, if_neg empty, if_neg fun h => empty h.1]
      simp only [decide_not, decide_eq_false empty, Bool.not_false, Bool.or_true]
      rfl

theorem capture_stores {c : Capture} {x : Int}
    (stores : c.phase = .recording ∨ (c.phase = .waitingSound ∧ x ≠ -8388608)) (start : Nat) :
    c.sample start x = { c with phase := .recording }.store start x := by
  unfold Capture.sample
  rcases stores with recording | ⟨waiting, sound⟩
  · rw [recording]
    dsimp only
    rw [← recording]
  · rw [waiting]
    exact if_neg sound

theorem capture_still {c : Capture} {x : Int}
    (still : c.phase = .idle ∨ c.phase = .closing ∨ (c.phase = .waitingSound ∧ x = -8388608)) (start : Nat) :
    c.sample start x = c := by
  unfold Capture.sample
  rcases still with idle | closing | ⟨waiting, empty⟩
  · rw [idle]
  · rw [closing]
  · rw [waiting]
    exact if_pos empty

/-! ### Players -/

theorem grant_players (c : Clips) : c.grant.players = c.players := by
  unfold Clips.grant
  split
  · rfl
  · split
    · rfl
    · split
      · rfl
      · split <;> rfl

theorem playerOut_eq (c : Clips) (p : Fin 4) : c.playerOut p = match (c.players[p]).state, (c.players[p]).fifo with
    | .idle, _ => -8388608
    | .playing, (pos, w) :: _ =>
      let trim : Nat := (((c.players[p]).sequence[pos]?.bind (fun k => c.directory[k])).map (·.trim)).getD 0
      max (-8388607) (min 8388607 ((w.toInt * 256 * (trim : Int) + 8192) / 16384))
    | _, _ => 0 := by
  unfold Clips.playerOut
  dsimp only
  cases (c.players[p]).state with
  | playing =>
    cases (c.players[p]).fifo <;> rfl
  | _ => rfl

theorem chimeOver_eq (x : Player) :
    x.chimeOver = (x.fetch.all (fun f => decide (1 ≤ f.1)) && x.fifo.all (fun w => w.1 != 0)) := by
  unfold Player.chimeOver
  cases x.fetch <;> rfl

theorem play_eq (x : Player) : x.play = { x with
    fifo := x.fifo.tail
    chimeEnd :=
      if x.chimeEnd = .ahead ∧ x.fetch.all (fun f => decide (1 ≤ f.1)) = true ∧
        x.fifo.tail.all (fun w => w.1 != 0) = true then .due else x.chimeEnd
    seqEnd := if x.seqEnd = .ahead ∧ x.fetch = none ∧ x.fifo.tail = [] then .due else x.seqEnd } := by
  have reach (b : Boundary) (passed : Bool) : b.reach passed = if b = .ahead ∧ passed = true then .due else b := by
    unfold Boundary.reach
    refine if_congr ?_ rfl rfl
    rw [Bool.and_eq_true, beq_iff_eq]
  unfold Player.play
  simp only [reach, chimeOver_eq, Bool.and_eq_true, Option.isNone_iff_eq_none, List.isEmpty_iff]

theorem underruns_iff {c : Clips} {p : Fin 4} (playing : (c.players[p]).state = .playing) :
    c.underruns p = true ↔ (c.players[p]).fifo = [] ∧ ((c.players[p]).fetch ≠ none ∨
      ∃ pos off len n, c.burst = some { kind := .playerRead p pos off len false, elapsed := n }) := by
  unfold Clips.underruns
  dsimp only
  rw [playing, Bool.and_eq_true, Bool.and_eq_true, Bool.or_eq_true, outstanding_iff, List.isEmpty_iff,
    Option.isSome_iff_ne_none]
  exact and_congr_left' (and_iff_right rfl)

/-- Of one player, of the burst, the pages and the ring nothing has changed; the event list has only grown. -/
structure PlayerStill (p : Fin 4) (s t : State) : Prop where
  player : t.clips.players[p] = s.clips.players[p]
  burst : t.clips.burst = s.clips.burst
  pages : t.pages = s.pages
  ring : t.ring = s.ring
  noted : Noted s t

theorem PlayerStill.refl (p : Fin 4) (s : State) : PlayerStill p s s := ⟨rfl, rfl, rfl, rfl, .refl s⟩

theorem PlayerStill.trans {p : Fin 4} {s t u : State} (h : PlayerStill p s t) (k : PlayerStill p t u) :
    PlayerStill p s u :=
  ⟨k.player.trans h.player, k.burst.trans h.burst, k.pages.trans h.pages, k.ring.trans h.ring, h.noted.trans k.noted⟩

theorem setPlayer_still (s : State) {p q : Fin 4} (other : q ≠ p) (x : Player) : PlayerStill p s (s.setPlayer q x) :=
  ⟨put_get_ne _ _ _ _ (Ne.symm other), rfl, rfl, rfl, .of_eq rfl⟩

theorem post_still (s : State) (p : Fin 4) (k : EventKind) (n : Word16) (d : BitVec 4) :
    PlayerStill p s (s.post k n d) := ⟨rfl, rfl, rfl, rfl, (post_ctl_noted s k n d).1⟩

/-- The first underrun of a sequence is posted (R104). -/
def State.underrunPosted (s : State) (p : Fin 4) : State :=
  if s.clips.underruns p && !(s.clips.players[p]).underrun then
    (s.setPlayer p { s.clips.players[p] with underrun := true }).post .underrun ((s.playerPage p).map (·.id) |>.getD 0)
      (BitVec.ofNat 4 p.val)
  else s

theorem playerStep_eq (s : State) (p : Fin 4) : s.playerStep p = if (s.clips.players[p]).state = .playing then
    (s.underrunPosted p).setPlayer p ((s.underrunPosted p).clips.players[p]).play else s.underrunPosted p := by
  unfold State.playerStep State.underrunPosted
  rfl

theorem playerStep_still (s : State) {p q : Fin 4} (other : q ≠ p) : PlayerStill p s (s.playerStep q) := by
  have posted : PlayerStill p s (s.underrunPosted q) := by
    unfold State.underrunPosted
    split
    · exact (setPlayer_still s other _).trans (post_still _ p _ _ _)
    · exact .refl p s
  rw [playerStep_eq]
  split
  · exact posted.trans (setPlayer_still _ other _)
  · exact posted

theorem playerStep_burst (s : State) (p : Fin 4) : (s.playerStep p).clips.burst = s.clips.burst := by
  have posted : (s.underrunPosted p).clips.burst = s.clips.burst := by
    unfold State.underrunPosted
    split <;> rfl
  rw [playerStep_eq]
  split
  · exact posted
  · exact posted

theorem playerStep_notPlaying {s : State} {p : Fin 4} (other : (s.clips.players[p]).state ≠ .playing) :
    s.playerStep p = s := by
  have quiet : s.clips.underruns p = false := by
    unfold Clips.underruns
    dsimp only
    rw [beq_eq_false_iff_ne.mpr other, Bool.false_and, Bool.false_and]
  rw [playerStep_eq, if_neg other, State.underrunPosted, quiet, Bool.false_and, if_neg Bool.false_ne_true]

theorem playerStep_playing {s : State} {p : Fin 4} (playing : (s.clips.players[p]).state = .playing) :
    (s.playerStep p).clips.players[p] = ({ s.clips.players[p] with
      underrun := (s.clips.players[p]).underrun || s.clips.underruns p } : Player).play ∧
    (s.clips.underruns p = true → (s.clips.players[p]).underrun = false → (s.playerStep p).noted
      { kind := .underrun, stamp := s.ring.cycleNumber.extractLsb' 9 7
        subject := ((s.playerPage p).map (·.id)).getD 0, detail := BitVec.ofNat 4 p.val }) := by
  have player : (s.underrunPosted p).clips.players[p] = { s.clips.players[p] with
      underrun := (s.clips.players[p]).underrun || s.clips.underruns p } := by
    unfold State.underrunPosted
    generalize s.clips.underruns p = under
    split
    · rename_i first
      rw [Bool.and_eq_true, Bool.not_eq_true'] at first
      obtain ⟨rfl, -⟩ := first
      rw [Bool.or_true]
      exact put_get_self _ _ _
    · rename_i again
      have same : ((s.clips.players[p]).underrun || under) = (s.clips.players[p]).underrun := by
        cases known : (s.clips.players[p]).underrun <;> cases under <;> simp_all
      rw [same]
  have step : s.playerStep p =
      (s.underrunPosted p).setPlayer p ((s.underrunPosted p).clips.players[p]).play := by
    rw [playerStep_eq, if_pos playing]
  constructor
  · rw [step, player]
    exact put_get_self _ _ _
  · intro under first
    have posts : s.underrunPosted p = (s.setPlayer p { s.clips.players[p] with underrun := true }).post .underrun
        (((s.playerPage p).map (·.id)).getD 0) (BitVec.ofNat 4 p.val) := by
      rw [State.underrunPosted, under, first]
      rfl
    rw [step]
    refine (Noted.of_eq (s := s.underrunPosted p) rfl).noted ?_
    rw [posts]
    exact (post_ctl_noted _ _ _ _).2

/-- What becomes of one player when every player takes its step (R103, R104). -/
theorem playerSteps_at (s : State) (p : Fin 4) :
    let x := s.clips.players[p]
    let t := forEach 4 (fun p s => s.playerStep p) s
    (x.state ≠ .playing → t.clips.players[p] = x) ∧
    (x.state = .playing →
      t.clips.players[p] = ({ x with underrun := x.underrun || s.clips.underruns p } : Player).play ∧
      (s.clips.underruns p = true → x.underrun = false → t.noted
        { kind := .underrun, stamp := s.ring.cycleNumber.extractLsb' 9 7
          subject := ((s.playerPage p).map (·.id)).getD 0, detail := BitVec.ofNat 4 p.val })) := by
  intro x t
  obtain ⟨v, before, after⟩ := forEach_at (R := PlayerStill p) (PlayerStill.refl p) PlayerStill.trans
    (f := fun p s => s.playerStep p) p (fun j s other => playerStep_still s other) s
  have ht : t = forEach 4 (fun p s => s.playerStep p) s := rfl
  rw [← ht] at after
  clear_value t
  have player : t.clips.players[p] = (v.playerStep p).clips.players[p] := after.player
  have noted {e : EventRec} : (v.playerStep p).noted e → t.noted e := after.noted.noted
  have same : v.clips.players[p] = x := before.player
  have under : v.clips.underruns p = s.clips.underruns p := by
    unfold Clips.underruns Clips.outstanding
    rw [same, before.burst]
  have page : v.playerPage p = s.playerPage p := by
    unfold State.playerPage
    rw [before.pages]
  refine ⟨fun other => ?_, fun playing => ?_⟩
  · rw [player, playerStep_notPlaying (by rw [same]; exact other), same]
  · obtain ⟨next, posts⟩ := playerStep_playing (s := v) (p := p) (by rw [same]; exact playing)
    rw [same, under, page, before.ring] at posts
    rw [same, under] at next
    exact ⟨player.trans next, fun h k => noted (posts h k)⟩

theorem playerSteps_frame (s : State) : (forEach 4 (fun p s => s.playerStep p) s).clips.burst = s.clips.burst :=
  forEach_keeps (R := fun s t => t.clips.burst = s.clips.burst) (fun _ => rfl) (fun h k => k.trans h) 4 _
    (fun p s => playerStep_burst s p) s

end Sys2Proof.Machine
end

section
/-! The steps of one period, from its beginning to its end: what players, feed pairs and the capture unit come to. -/

namespace Sys2Proof.Machine

/-- The states between the steps of a period that begins with b and ends with t: w before the players' steps, p after
them, r after the recovery of the feed pairs. -/
structure Advances (b t w p r : State) : Prop where
  clips : w.clips = b.clips
  pages : w.pages = b.pages
  taps : w.ring.taps = b.ring.taps
  number : t.ring.cycleNumber = w.ring.cycleNumber
  played : p = forEach 4 (fun q s => s.playerStep q) w
  ring : p.ring = w.ring
  feedsBefore : p.feeds = b.feeds
  recovered : r = forEach 4 (fun f s => s.feedRecovery f) (p.setAlarm p.alarm.advanceAll).feedTick
  feeds : t.feeds = r.feeds
  capture : t.clips.capture = b.clips.capture.sample b.captureStart (b.tap b.clips.capture.slot)
  notedPlayers : Noted p t
  notedFeeds : Noted r t
  handed : b.scene.handed = 0 → t.clips.players = p.clips.players ∧
    t.clips.burst = p.clips.burst.map (fun x => { x with elapsed := x.elapsed + 1 })

theorem feedRecoveries_noted (s : State) : Noted s (forEach 4 (fun f s => s.feedRecovery f) s) :=
  forEach_keeps Noted.refl Noted.trans 4 _ (fun f s => by
    have change (target : FeedState) : Noted s (s.changeFeed f target) := by
      unfold State.changeFeed
      refine Noted.trans (t := s.setFeed f ((s.feeds[f]).changed target)) (.of_eq rfl) ?_
      exact (post_ctl_noted _ _ _ _).1
    unfold State.feedRecovery
    dsimp only
    split
    · split
      · exact change _
      · split
        · exact change _
        · exact .refl s
    · exact .refl s) s

theorem captureStart_congr {s t : State} (directory : s.clips.directory = t.clips.directory)
    (capture : s.clips.capture = t.clips.capture) : s.captureStart = t.captureStart := by
  have get (v : State) :
      v.captureStart = ((v.clips.directory.get v.clips.capture.clip).map (·.start)).getD 0 := rfl
  rw [get, get, directory, capture]

theorem captureSample_clips (s : State) : s.captureSample.measureAll.clips = { s.clips with
    capture := s.clips.capture.sample s.captureStart (s.tap s.clips.capture.slot) } ∧
    s.captureSample.measureAll.ctl = s.ctl ∧ s.captureSample.measureAll.feeds = s.feeds := by
  simp only [State.captureSample, State.measureAll, State.setTrackers_clips, State.setTrackers_ctl,
    State.setTrackers_feeds, State.setClips_clips, State.setClips_ctl, State.setClips_feeds, and_self]

/-- What the steps that follow the computation leave of clips and feeds. -/
theorem advance_clips (w p r : State) (played : p = forEach 4 (fun q s => s.playerStep q) w)
    (recovered : r = forEach 4 (fun f s => s.feedRecovery f) (p.setAlarm p.alarm.advanceAll).feedTick) :
    p.ring = w.ring ∧ p.feeds = w.feeds ∧ w.advance.feeds = r.feeds ∧ w.advance.clips = { p.clips with
      capture := w.clips.capture.sample w.captureStart (w.tap w.clips.capture.slot) } ∧
    Noted p w.advance ∧ Noted r w.advance := by
  have frame : AdvanceFrame w p := by
    rw [played]
    exact forEach_keeps AdvanceFrame.refl AdvanceFrame.trans 4 _ (fun p s => playerStep_advanceFrame s p) w
  obtain ⟨-, pFeeds, -, pCapture⟩ := playerSteps_alarm w
  rw [← played] at pFeeds pCapture
  have advance := advance_def w p _ r played.symm rfl recovered.symm
  obtain ⟨g, hg⟩ : ∃ g, g = (p.setAlarm p.alarm.advanceAll).feedTick := ⟨_, rfl⟩
  have gClips : g.clips = p.clips := by rw [hg, feedTick_blocks, State.setFeeds_clips, State.setAlarm_clips]
  have gRing : g.ring = p.ring := by rw [hg, feedTick_blocks, State.setFeeds_ring, State.setAlarm_ring]
  have gCtl : g.ctl = p.ctl := by rw [hg, feedTick_blocks, State.setFeeds_ctl, State.setAlarm_ctl]
  rw [← hg] at recovered
  obtain ⟨-, -, rClips⟩ := feedRecoveries_alarm g
  have rNoted := feedRecoveries_noted g
  have rFrame : AdvanceFrame g r := by
    rw [recovered]
    exact forEach_keeps AdvanceFrame.refl AdvanceFrame.trans 4 _ (fun f s => feedRecovery_advanceFrame s f) g
  rw [← recovered] at rClips rNoted
  obtain ⟨clips, ctl, feeds⟩ := captureSample_clips r
  rw [← advance] at clips ctl feeds
  have tap (x : Fin 64) : r.tap x = w.tap x := by
    unfold State.tap
    rw [rFrame.ring, gRing, frame.ring]
  have directory : p.clips.directory = w.clips.directory := frame.directory
  have start : r.captureStart = w.captureStart :=
    captureStart_congr (by rw [rClips, gClips, directory]) (by rw [rClips, gClips, pCapture])
  refine ⟨frame.ring, pFeeds, feeds, ?_, ((Noted.of_eq gCtl).trans rNoted).trans (.of_eq ctl), .of_eq ctl⟩
  rw [clips, start, tap, rClips, gClips, pCapture]

theorem cyclePeriod_advances (frame : Vector RawSample 32) (contacts : BitVec 4) (s : State) :
    ∃ w p r, Advances s.begun (cyclePeriod frame contacts s) w p r := by
  have period := cyclePeriod_def frame contacts s _ _ rfl rfl
  obtain ⟨b, hb⟩ : ∃ b, b = s.begun := ⟨_, rfl⟩
  have more := prepare_more b frame
  have prepared := prepare_blocks b frame
  rw [← hb] at period ⊢
  obtain ⟨c, hc⟩ : ∃ c, c = b.prepare frame := ⟨_, rfl⟩
  rw [← hc] at period more prepared
  obtain ⟨w, hw⟩ : ∃ w, w = c.send c.compute := ⟨_, rfl⟩
  have sent := send_blocks c c.compute
  rw [← hw] at sent period
  obtain ⟨-, -, -, sScene, -, -, sPages, -, sClips, sFeeds, -, sTaps, -⟩ := sent
  obtain ⟨-, cPages, -, cFeeds, cClips, cScene, -⟩ := more
  obtain ⟨-, cRing, -⟩ := prepared
  have clips : w.clips = b.clips := sClips.trans cClips
  have taps : w.ring.taps = b.ring.taps := sTaps.trans (congrArg Ring.taps cRing)
  obtain ⟨p, played⟩ : ∃ p, p = forEach 4 (fun q s => s.playerStep q) w := ⟨_, rfl⟩
  obtain ⟨r, recovered⟩ : ∃ r, r = forEach 4 (fun f s => s.feedRecovery f) (p.setAlarm p.alarm.advanceAll).feedTick :=
    ⟨_, rfl⟩
  obtain ⟨ring, feedsBefore, feeds, after, notedPlayers, notedFeeds⟩ := advance_clips w p r played recovered
  have vFrame := advance_advanceFrame w
  obtain ⟨v, hv⟩ : ∃ v, v = w.advance := ⟨_, rfl⟩
  rw [← hv] at feeds after notedPlayers notedFeeds vFrame period
  obtain ⟨-, -, -, tScene, tRing, tCtl, -, -, -, tClips, tFeeds, -⟩ := tick_blocks v contacts
  obtain ⟨-, -, -, -, fRing, -, -, -, -, -, -, fFeeds, -, fCapture, -, -, still⟩ := finish_blocks (v.tick contacts)
  have noted : Noted v (v.tick contacts).finish := (Noted.of_eq tCtl).trans (finish_noted _)
  rw [← period] at fRing fFeeds fCapture still noted
  have start : w.captureStart = b.captureStart := captureStart_congr (by rw [clips]) (by rw [clips])
  have tap (x : Fin 64) : w.tap x = b.tap x := by
    unfold State.tap
    rw [taps]
  refine ⟨w, p, r, ?_⟩
  exact {
    clips := clips
    pages := sPages.trans cPages
    taps := taps
    number := by
      rw [fRing]
      exact (congrArg Ring.cycleNumber (tRing.trans vFrame.ring) :)
    played := played
    ring := ring
    feedsBefore := feedsBefore.trans (sFeeds.trans cFeeds)
    recovered := recovered
    feeds := fFeeds.trans (tFeeds.trans feeds)
    capture := by rw [fCapture, tClips, after, start, tap, clips]
    notedPlayers := notedPlayers.trans noted
    notedFeeds := notedFeeds.trans noted
    handed := fun none => by
      have quiet : (v.tick contacts).scene.handed = 0 := by
        rw [tScene, vFrame.scene, sScene, cScene, none]
      obtain ⟨-, same, -⟩ := still quiet
      rw [same, tClips, after]
      exact ⟨rfl, rfl⟩ }

end Sys2Proof.Machine

open Sys2Proof Sys2Proof.Machine

/-- Settles O38: the runs and the recovery of each pair, the sample of the capture unit, the start of the period, and
the step of each player. -/
theorem periodsCountFeedsCapturesAndPlayers : Obligations.PeriodsCountFeedsCapturesAndPlayers := by
  intro s frame contacts u b
  have hu : u = s.closedBefore := rfl
  have hb : b = s.begun := rfl
  clear_value b u
  have begun := begun_begun s
  have passed := cyclePeriod_passed frame contacts s
  have prepared := prepare_prepared s.begun frame
  obtain ⟨w, p, r, advances⟩ := cyclePeriod_advances frame contacts s
  obtain ⟨t, ht⟩ : ∃ t, t = cyclePeriod frame contacts s := ⟨_, rfl⟩
  obtain ⟨c, hc⟩ : ∃ c, c = s.begun.prepare frame := ⟨_, rfl⟩
  rw [← ht, ← hc, ← hb] at passed
  rw [← hc, ← hb] at prepared
  rw [← ht, ← hb] at advances
  rw [← hu, ← hb] at begun
  have tapW (x : Fin 64) : w.tap x = b.tap x := by
    unfold State.tap
    rw [advances.taps]
  refine ⟨t, by rw [ht]; rfl, ?_⟩
  intro posted
  have posts {kind : EventKind} {n : Word16} {d : BitVec 4} {v : State} (noted : Noted v t)
      (here : v.noted { kind := kind, stamp := w.ring.cycleNumber.extractLsb' 9 7, subject := n, detail := d }) :
      posted kind n d := by
    rw [← advances.number] at here
    exact noted.noted here
  refine ⟨fun f => ?_, ?_, fun q => ⟨?_, ?_⟩, ?_, fun q => ?_, fun handed => ⟨?_, fun q => ?_⟩⟩
  · intro x mainEmpty backupEmpty run y back
    obtain ⟨still, toMain, toBackup⟩ := feedRecoveries_at (p.setAlarm p.alarm.advanceAll).feedTick f
    rw [← advances.recovered] at still toMain toBackup
    obtain ⟨g, hg⟩ : ∃ g, g = (p.setAlarm p.alarm.advanceAll).feedTick := ⟨_, rfl⟩
    have ring : g.ring = w.ring := by
      rw [hg, feedTick_blocks, State.setFeeds_ring, State.setAlarm_ring, advances.ring]
    have tap (k : Fin 64) : g.tap k = b.tap k := by
      unfold State.tap
      rw [ring, advances.taps]
    have tapP (k : Fin 64) : (p.setAlarm p.alarm.advanceAll).tap k = b.tap k := by
      unfold State.tap
      rw [State.setAlarm_ring, advances.ring, advances.taps]
    have feed : g.feeds[f] = y := by
      rw [hg, feedTick_get, State.setAlarm_feeds, advances.feedsBefore]
      unfold State.mainEmpty State.backupEmpty
      rw [tapP, tapP]
      exact feed_counted x _ _
    rw [← hg] at still toMain toBackup
    rw [feed] at still toMain toBackup
    rw [ring] at toMain toBackup
    have main : g.mainEmpty y = mainEmpty := by
      unfold State.mainEmpty
      rw [tap]
      rfl
    have backup : g.backupEmpty y = backupEmpty := by
      unfold State.backupEmpty
      rw [tap]
      rfl
    have state : y.state = x.state := rfl
    have tFeed : t.feeds[f] = r.feeds[f] := by rw [advances.feeds]
    rw [main, backup, state] at still toBackup
    rw [main, state] at toMain
    refine ⟨fun h => tFeed.trans (still h), fun lost present => ?_, fun lost empty present => ?_⟩
    · obtain ⟨pair, here⟩ := toMain lost present
      exact ⟨tFeed.trans pair, posts advances.notedFeeds here⟩
    · obtain ⟨pair, here⟩ := toBackup lost empty present
      exact ⟨tFeed.trans pair, posts advances.notedFeeds here⟩
  · intro k x start word_ stored
    refine ⟨fun stores => ?_, fun still => ?_⟩
    · rw [advances.capture]
      exact (capture_stores stores _).trans (capture_store _ _ _)
    · rw [advances.capture]
      exact capture_still still _
  · intro busy
    rw [begun.clips, grant_players, idlePlayers_players, busy]
    rfl
  · intro released
    rw [begun.clips, grant_players, idlePlayers_players, if_pos released]
    rfl
  · intro v run
    have granted : burstGrant { u with clips := { u.clips with players := b.clips.players } } = v :=
      Host.Outcome.next.inj run
    have players : b.clips.players = (forEach 4 (fun p s => s.idlePlayer p) u).clips.players := by
      rw [begun.clips, grant_players]
    rw [← granted, players, begun.clips, (congrArg State.clips (idlePlayers_idle u).rest :)]
    rfl
  · intro x
    rw [passed.recent, compute_player, prepared.clips]
    exact playerOut_eq b.clips q
  · obtain ⟨-, burst⟩ := advances.handed handed
    rw [burst, advances.played, playerSteps_frame, advances.clips]
  · intro x asked under after
    obtain ⟨players, -⟩ := advances.handed handed
    obtain ⟨still, plays⟩ := playerSteps_at w q
    rw [← advances.played] at still plays
    have page : w.playerPage q = b.playerPage q := by
      unfold State.playerPage
      rw [advances.pages]
    rw [advances.clips] at still plays
    rw [page] at plays
    have tPlayer : t.clips.players[q] = p.clips.players[q] := by rw [players]
    refine ⟨fun other => tPlayer.trans (still other), fun playing fed => ?_, fun playing starved => ⟨?_, fun first => ?_⟩⟩
    · obtain ⟨next, -⟩ := plays playing
      have quiet : b.clips.underruns q = false := by
        rw [← Bool.not_eq_true, underruns_iff playing]
        exact fed
      rw [quiet, Bool.or_false] at next
      exact tPlayer.trans (next.trans (play_eq _))
    · obtain ⟨next, -⟩ := plays playing
      have runs : b.clips.underruns q = true := (underruns_iff playing).mpr starved
      rw [runs, Bool.or_true] at next
      exact tPlayer.trans (next.trans (play_eq _))
    · obtain ⟨-, here⟩ := plays playing
      exact posts advances.notedPlayers (here ((underruns_iff playing).mpr starved) first)

end

section
/-! What is grantable to a page and revoked from it, and what a walk does with one record (R111, R113 to R116, R118). -/

namespace Sys2Proof.Machine

/-! ### Zones -/

theorem holder_holds {s : State} {z : Fin 24} {q : Page} (found : s.holder z = some q) :
    q.granted.getLsbD z.val = true := by
  rw [State.holder] at found
  have holds := List.find?_some found
  exact holds

/-- A zone is grantable to a page: uncovered, not locked against it, and held by lower pages alone (R111). -/
theorem grantable_iff {s : State} (ok : s.pagesOk) (p : Page) (z : Fin 24) : s.grantable p z = true ↔
    s.covered z = false ∧ (∀ h, (s.zoneFields z).mode = .showLocked h → h ≤ p.priority) ∧
      ∀ q ∈ s.pages.queue, q.granted.getLsbD z.val = true → q.priority < p.priority := by
  have held : (∀ q ∈ s.pages.queue, q.granted.getLsbD z.val = true → q.priority < p.priority) ↔
      ((s.holder z).map (·.priority)).all (fun n => decide (n < p.priority)) = true := by
    cases found : s.holder z with
    | none =>
      refine iff_of_true (fun q mem holds => absurd holds ?_) rfl
      exact List.find?_eq_none.mp found q mem
    | some h =>
      have mem := List.mem_of_find?_eq_some found
      have holds : h.granted.getLsbD z.val = true := holder_holds found
      rw [Option.map_some, Option.all_some, decide_eq_true_eq]
      refine ⟨fun all => all h mem holds, fun less q memQ holdsQ => ?_⟩
      by_cases same : q.id = h.id
      · rwa [ok.idsApart.eq memQ mem same]
      · have apart := and_eq_zero_iff.mp (ok.holders memQ mem same) z holdsQ
        exact absurd (holds.symm.trans apart) (by decide)
  rw [grantable_eq, Bool.and_eq_true, Bool.and_eq_true, Bool.not_eq_true', Bool.not_eq_true',
    lockedAgainst_eq_false_iff, held, and_assoc]

theorem lockedAgainst_iff (s : State) (z : Fin 24) (priority : Nat) :
    s.lockedAgainst z priority = true ↔ ∃ h, (s.zoneFields z).mode = .showLocked h ∧ priority < h := by
  rw [← Bool.not_eq_false, lockedAgainst_eq_false_iff]
  push Not
  rfl

theorem revokedZones_iff (s : State) (p : Page) (z : Fin 24) : (s.revokedZones p).getLsbD z.val = true ↔
    p.granted.getLsbD z.val = true ∧
      (s.covered z = true ∨ ∃ h, (s.zoneFields z).mode = .showLocked h ∧ p.priority < h) := by
  rw [revokedZones_getLsbD, Bool.and_eq_true, Bool.or_eq_true, lockedAgainst_iff]

/-! ### The record that is examined -/

theorem needsPlayer_iff (p : Page) : p.needsPlayer = true ↔ p.clip = true ∨ p.chime ≠ none := by
  rw [Page.needsPlayer, Bool.or_eq_true, Option.isSome_iff_ne_none]

theorem freePlayer_none_iff (s : State) :
    s.freePlayer = none ↔ ¬ ∃ x : Fin 4, ∀ q ∈ s.pages.queue, q.player ≠ some x := by
  rw [State.freePlayer, List.find?_eq_none, not_exists]
  simp only [mem_indices, true_implies, Bool.not_eq_true', List.any_eq_false, beq_iff_eq]

theorem freePlayer_eq {s : State} {x : Fin 4} (free : ∀ q ∈ s.pages.queue, q.player ≠ some x)
    (lowest : ∀ y < x, ¬ ∀ q ∈ s.pages.queue, q.player ≠ some y) : s.freePlayer = some x := by
  refine (find_indices_iff _ x).mpr ⟨?_, fun y less => ?_⟩
  · simpa only [Bool.not_eq_true', List.any_eq_false, beq_iff_eq] using free
  · rw [← Bool.not_eq_true]
    simpa only [Bool.not_eq_true', List.any_eq_false, beq_iff_eq] using lowest y less

/-- The sequence of a record and whether it begins with the chime (R119). -/
theorem sequence_eq (p : Page) : p.sequence =
    (match p.source with
      | .clips l => if p.current = 1 then p.chime.toList ++ l else l
      | _ => p.chime.toList, p.chime.isSome && (!p.clip || p.current == 1)) := by
  unfold Page.sequence Page.clip
  cases p.source with
  | clips l =>
    cases p.chime with
    | none =>
      dsimp only
      split <;> rfl
    | some c =>
      dsimp only
      by_cases first : p.current = 1
      · simp [first]
      · simp [first]
  | _ => simp

/-- A granted record (R113, R119). -/
theorem grantedWith_eq {p : Page} (idle : p.granted = 0) (zones : ZoneSet) (player : Option (Fin 4)) :
    p.grantedWith zones player = { p with
      state := .playing, granted := zones, player := player, started := true, restartIn := none
      phase := if p.chime.isSome && (!p.clip || p.current == 1) then .chime else .audio
      sourceLoss := if p.clip then p.sourceLoss else 0 } := by
  have sequence : ({ p with granted := p.granted ||| zones, player := player, state := .playing, started := true } :
      Page).sequence.2 = (p.chime.isSome && (!p.clip || p.current == 1)) := congrArg Prod.snd (sequence_eq _)
  have granted : p.granted ||| zones = zones :=
    (congrArg (· ||| zones) idle).trans BitVec.zero_or
  unfold Page.grantedWith Page.restarted
  rw [sequence]
  simp only [granted]
  rfl

/-- PAGE STARTED is posted at the first grant of a record (R113). -/
def Page.shownIn (p : Page) (t : State) : State := if p.started then t else t.withEvent .pageStarted p.id.toNat 0

theorem grantPage_shown {s : State} (ok : s.pagesOk) {p : Page} (mem : p ∈ s.pages.queue) (zones : ZoneSet) :
    s.grantPage p zones =
      (p.shownIn (s.granted p zones), s.pages.queue.any (fun q => q.id != p.id && q.suspendedBy zones)) :=
  grantPage_eq ok.idsApart mem zones

section Idle

variable {s : State} (ok : s.pagesOk) {p : Page} (mem : p ∈ s.pages.queue) (idle : p.state ≠ .playing)
include ok mem idle

/-- Whether a record that is not PLAYING may be granted its zones. -/
theorem examinePage_mayNot (b : Bool)
    (mayNot : ¬ ((if p.whole then s.grantableZones p = p.zones else s.grantableZones p ≠ 0) ∧
      (p.clip = true ∨ p.chime ≠ none → ∃ x : Fin 4, ∀ q ∈ s.pages.queue, q.player ≠ some x))) :
    examinePage p.id (s, b) = (s, b) := by
  rw [examinePage_idle ok.idsApart mem b idle]
  by_cases short : (p.needsPlayer && s.freePlayer.isNone) = true
  · rw [if_pos short]
  · rw [if_neg short]
    refine if_neg fun zones => mayNot ⟨zones, fun needs => ?_⟩
    by_contra absent
    exact short (by rw [(needsPlayer_iff p).mpr needs, (freePlayer_none_iff s).mpr absent]; rfl)

theorem examinePage_may (b : Bool)
    (zones : if p.whole then s.grantableZones p = p.zones else s.grantableZones p ≠ 0)
    (player : p.clip = true ∨ p.chime ≠ none → ∃ x : Fin 4, ∀ q ∈ s.pages.queue, q.player ≠ some x) :
    examinePage p.id (s, b) = (p.shownIn (s.granted p (s.grantableZones p)),
      b || s.pages.queue.any (fun q => q.id != p.id && q.suspendedBy (s.grantableZones p))) := by
  have enough : ¬ (p.needsPlayer && s.freePlayer.isNone) = true := by
    rw [Bool.and_eq_true, Option.isNone_iff_eq_none, needsPlayer_iff, freePlayer_none_iff]
    exact fun ⟨needs, absent⟩ => absent (player needs)
  rw [examinePage_idle ok.idsApart mem b idle, if_neg enough, if_pos zones, grantPage_shown ok mem]

/-- A grant that gives no player (R113). -/
theorem granted_withoutPlayer (needs : ¬ (p.clip = true ∨ p.chime ≠ none)) (zones : ZoneSet) :
    s.granted p zones = (s.afterTaking p zones).withPage p.id (fun _ => { p with
      state := .playing, granted := zones, player := none, started := true, restartIn := none
      phase := if p.chime.isSome && (!p.clip || p.current == 1) then .chime else .audio
      sourceLoss := if p.clip then p.sourceLoss else 0 }) := by
  obtain ⟨-, quiet⟩ := ok.single mem
  obtain ⟨granted, -, player⟩ := quiet idle
  have given : (s.afterTaking p zones).grantPlayer p = none := by
    rw [State.grantPlayer, if_neg fun h => needs ((needsPlayer_iff p).mp h), player]
  rw [State.granted]
  simp only [given, grantedWith_eq granted]
  rfl

/-- A grant that gives the lowest free player (R113). -/
theorem granted_withPlayer (needs : p.clip = true ∨ p.chime ≠ none) (zones : ZoneSet) {x : Fin 4}
    (free : ∀ q ∈ (s.afterTaking p zones).pages.queue, q.player ≠ some x)
    (lowest : ∀ y < x, ¬ ∀ q ∈ (s.afterTaking p zones).pages.queue, q.player ≠ some y) :
    s.granted p zones = ((s.afterTaking p zones).withPage p.id (fun _ => { p with
      state := .playing, granted := zones, player := some x, started := true, restartIn := none
      phase := if p.chime.isSome && (!p.clip || p.current == 1) then .chime else .audio
      sourceLoss := if p.clip then p.sourceLoss else 0 })).playerHanded x p.sequence.1 p.sequence.2 := by
  obtain ⟨-, quiet⟩ := ok.single mem
  obtain ⟨granted, -, -⟩ := quiet idle
  have needed := (needsPlayer_iff p).mpr needs
  have given : (s.afterTaking p zones).grantPlayer p = some x := by
    rw [State.grantPlayer, if_pos needed, freePlayer_eq free lowest]
  have handed : ∀ t : State, t.sequenceHanded (p.grantedWith zones (some x)) =
      t.playerHanded x p.sequence.1 p.sequence.2 := fun t => by
    have needs' : (p.grantedWith zones (some x)).needsPlayer = true := needed
    have sequence : (p.grantedWith zones (some x)).sequence = p.sequence := rfl
    rw [State.sequenceHanded, show (p.grantedWith zones (some x)).player = some x from rfl]
    simp only [needs', sequence, if_true]
  rw [State.granted]
  simp only [given]
  rw [handed, grantedWith_eq granted]

end Idle

end Sys2Proof.Machine
end

section
/-! A grant pass ends: every walk that suspends a page raises the zone counts of the records, read in queue order as a
number (R112). -/

namespace Sys2Proof.Machine

/-! ### Numbers read from a list -/

/-- The digits of a list as a number of base 25, the first the most significant. -/
def weightOf : List Nat → Nat
  | [] => 0
  | x :: rest => x * 25 ^ rest.length + weightOf rest

theorem weightOf_append (l k : List Nat) : weightOf (l ++ k) = weightOf l * 25 ^ k.length + weightOf k := by
  induction l with
  | nil => simp [weightOf]
  | cons x rest ih =>
    rw [List.cons_append, weightOf, weightOf, ih, List.length_append, pow_add]
    ring

theorem weightOf_lt {l : List Nat} (digits : ∀ x ∈ l, x < 25) : weightOf l < 25 ^ l.length := by
  induction l with
  | nil => exact Nat.one_pos
  | cons x rest ih =>
    have bound := ih fun y mem => digits y (List.mem_cons_of_mem _ mem)
    have digit := digits x List.mem_cons_self
    calc weightOf (x :: rest) < x * 25 ^ rest.length + 25 ^ rest.length := Nat.add_lt_add_left bound _
      _ = (x + 1) * 25 ^ rest.length := by ring
      _ ≤ 25 * 25 ^ rest.length := Nat.mul_le_mul_right _ digit
      _ = 25 ^ (x :: rest).length := by rw [List.length_cons, pow_succ, Nat.mul_comm]

/-- A greater digit makes a greater number, whatever the digits after it. -/
theorem weightOf_raised {before rest rest' : List Nat} {x y : Nat} (less : x < y) (digits : ∀ n ∈ rest, n < 25)
    (length : rest'.length = rest.length) : weightOf (before ++ x :: rest) < weightOf (before ++ y :: rest') := by
  rw [weightOf_append, weightOf_append, List.length_cons, List.length_cons, length]
  refine Nat.add_lt_add_left ?_ _
  calc weightOf (x :: rest) < x * 25 ^ rest.length + 25 ^ rest.length := Nat.add_lt_add_left (weightOf_lt digits) _
    _ = (x + 1) * 25 ^ rest.length := by ring
    _ ≤ y * 25 ^ rest.length := Nat.mul_le_mul_right _ less
    _ ≤ weightOf (y :: rest') := by
      rw [weightOf, length]
      exact Nat.le_add_right _ _

theorem weightOf_grown {before rest : List Nat} {x y : Nat} (grown : x ≤ y) :
    weightOf (before ++ x :: rest) ≤ weightOf (before ++ y :: rest) := by
  rw [weightOf_append, weightOf_append]
  exact Nat.add_le_add_left (Nat.add_le_add_right (Nat.mul_le_mul_right _ grown) _) _

/-! ### Zone counts -/

/-- How many zones a set has. -/
def zoneCount (zs : ZoneSet) : Nat := allZones.countP (hasZone zs)

theorem zoneCount_le (zs : ZoneSet) : zoneCount zs < 25 := by
  have bound : zoneCount zs ≤ allZones.length := List.countP_le_length
  have length : allZones.length = 24 := List.length_ofFn
  omega

theorem zoneCount_mono {a b : ZoneSet} (sub : ∀ z : Fin 24, a.getLsbD z.val = true → b.getLsbD z.val = true) :
    zoneCount a ≤ zoneCount b := List.countP_mono_left fun z _ => sub z

theorem zoneCount_lt {a b : ZoneSet} (sub : ∀ z : Fin 24, a.getLsbD z.val = true → b.getLsbD z.val = true) {z : Fin 24}
    (new : b.getLsbD z.val = true) (old : a.getLsbD z.val = false) : zoneCount a < zoneCount b := by
  unfold zoneCount
  obtain ⟨before, after, split⟩ := List.append_of_mem (mem_allZones z)
  have first : before.countP (hasZone a) ≤ before.countP (hasZone b) := List.countP_mono_left fun y _ => sub y
  have last : after.countP (hasZone a) ≤ after.countP (hasZone b) := List.countP_mono_left fun y _ => sub y
  have here : hasZone b z = true := new
  have absent : hasZone a z = false := old
  rw [split, List.countP_append, List.countP_append, List.countP_cons, List.countP_cons, here, absent]
  simp only [if_true, Bool.false_eq_true, if_false]
  omega

/-- The zone counts of the records, read in queue order. -/
def State.weight (s : State) : Nat := weightOf (s.pages.queue.map fun q => zoneCount q.granted)

theorem weight_lt {s : State} (ok : s.pagesOk) : s.weight < walkBound := by
  obtain ⟨length, -⟩ := ok
  have bound : s.weight < 25 ^ (s.pages.queue.map fun q => zoneCount q.granted).length :=
    weightOf_lt fun x mem => by
      obtain ⟨q, -, rfl⟩ := List.mem_map.mp mem
      exact zoneCount_le _
  rw [List.length_map] at bound
  exact bound.trans_le (Nat.pow_le_pow_right (by decide) length)

/-! ### A record that takes zones -/

theorem afterLoss_apart {q : Page} {lost : ZoneSet} (apart : q.granted &&& lost = 0) : q.afterLoss lost = q := by
  have quiet : q.suspendedBy lost = false := by
    rw [Page.suspendedBy, apart]
    rfl
  rw [Page.afterLoss, quiet, if_neg Bool.false_ne_true, and_not_of_and_zero apart]

/-- A record that takes zones which lower records hold raises the number that the queue is read as. -/
theorem Takes.rises {s t : State} {p p' : Page} {zones : ZoneSet} (h : Takes s t p p' zones) (ok : s.pagesOk)
    (grantable : ∀ z : Fin 24, zones.getLsbD z.val = true → s.grantable p z = true) :
    s.weight ≤ t.weight ∧
    (s.pages.queue.any (fun q => q.id != p.id && q.suspendedBy zones) = true → s.weight < t.weight) := by
  obtain ⟨before, after, split⟩ := List.append_of_mem h.mem
  have order := ok
  obtain ⟨-, ids, order, -⟩ := order
  rw [split, List.map_append, List.map_cons, List.nodup_middle, List.nodup_cons, List.mem_append, not_or] at ids
  obtain ⟨⟨notBefore, notAfter⟩, -⟩ := ids
  rw [split, List.pairwise_append] at order
  obtain ⟨-, -, order⟩ := order
  have own (z : Fin 24) (old : p.granted.getLsbD z.val = true) : p'.granted.getLsbD z.val = true := by
    rw [h.granted, BitVec.getLsbD_or, old, Bool.true_or]
  have lower {q : Page} (mem : q ∈ s.pages.queue) {z : Fin 24} (holds : q.granted.getLsbD z.val = true)
      (taken : zones.getLsbD z.val = true) : q.priority < p.priority := by
    obtain ⟨-, -, held⟩ := (grantable_iff ok p z).mp (grantable z taken)
    exact held q mem holds
  have apartBefore {q : Page} (mem : q ∈ before) : q.granted &&& zones = 0 := by
    rw [and_eq_zero_iff]
    intro z holds
    rw [← Bool.not_eq_true]
    intro taken
    have inside : q ∈ s.pages.queue := by
      rw [split]
      exact List.mem_append_left _ mem
    have less := lower inside holds taken
    have place := order q mem p List.mem_cons_self
    omega
  have map : t.pages.queue.map (fun q => zoneCount q.granted) = before.map (fun q => zoneCount q.granted) ++
      zoneCount p'.granted :: after.map (fun q => zoneCount (q.afterLoss zones).granted) := by
    rw [h.queue, split, List.map_append, List.map_cons, List.map_append, List.map_cons, if_pos rfl, List.map_map,
      List.map_map]
    congr 1
    · refine List.map_congr_left fun q mem => ?_
      have other : q.id ≠ p.id := fun same => notBefore (List.mem_map.mpr ⟨q, mem, same⟩)
      rw [Function.comp_apply, if_neg other, afterLoss_apart (apartBefore mem)]
    · congr 1
      refine List.map_congr_left fun q mem => ?_
      have other : q.id ≠ p.id := fun same => notAfter (List.mem_map.mpr ⟨q, mem, same⟩)
      rw [Function.comp_apply, if_neg other]
  have raised {q : Page} (mem : q ∈ s.pages.queue) (other : q.id ≠ p.id) {z : Fin 24}
      (holds : q.granted.getLsbD z.val = true) (taken : zones.getLsbD z.val = true) : s.weight < t.weight := by
    have new : p'.granted.getLsbD z.val = true := by rw [h.granted, BitVec.getLsbD_or, taken, Bool.or_true]
    have old : p.granted.getLsbD z.val = false := and_eq_zero_iff.mp (ok.holders mem h.mem other) z holds
    unfold State.weight
    rw [map, split, List.map_append, List.map_cons]
    refine weightOf_raised (zoneCount_lt own new old) (fun n inside => ?_) (by rw [List.length_map, List.length_map])
    obtain ⟨r, -, rfl⟩ := List.mem_map.mp inside
    exact zoneCount_le _
  by_cases some_ : ∃ q ∈ s.pages.queue, q.id ≠ p.id ∧ ∃ z : Fin 24, q.granted.getLsbD z.val = true ∧
      zones.getLsbD z.val = true
  · obtain ⟨q, mem, other, z, holds, taken⟩ := some_
    have less := raised mem other holds taken
    exact ⟨less.le, fun _ => less⟩
  · have apart {q : Page} (mem : q ∈ s.pages.queue) (other : q.id ≠ p.id) : q.granted &&& zones = 0 := by
      rw [and_eq_zero_iff]
      intro z holds
      rw [← Bool.not_eq_true]
      exact fun taken => some_ ⟨q, mem, other, z, holds, taken⟩
    constructor
    · have still : after.map (fun q => zoneCount (q.afterLoss zones).granted) =
          after.map (fun q => zoneCount q.granted) := by
        refine List.map_congr_left fun q mem => ?_
        have other : q.id ≠ p.id := fun same => notAfter (List.mem_map.mpr ⟨q, mem, same⟩)
        have inside : q ∈ s.pages.queue := by
          rw [split]
          exact List.mem_append_right _ (List.mem_cons_of_mem _ mem)
        rw [afterLoss_apart (apart inside other)]
      unfold State.weight
      rw [map, still, split, List.map_append, List.map_cons]
      exact weightOf_grown (zoneCount_mono own)
    · intro hit
      obtain ⟨q, mem, lost⟩ := List.any_eq_true.mp hit
      rw [Bool.and_eq_true, bne_iff_ne] at lost
      obtain ⟨other, suspended⟩ := lost
      rw [Page.suspendedBy, apart mem other] at suspended
      exact absurd suspended Bool.false_ne_true

/-! ### A walk -/

/-- From one step of a walk to the next the number does not fall, and it rises when a page is suspended. -/
structure Rises (r t : State × Bool) : Prop where
  weight : r.1.weight ≤ t.1.weight
  flag : t.2 = true → r.2 = true ∨ r.1.weight < t.1.weight

theorem Rises.refl (r : State × Bool) : Rises r r := ⟨Nat.le_refl _, .inl⟩

theorem Rises.trans {r t u : State × Bool} (h : Rises r t) (k : Rises t u) : Rises r u := by
  refine ⟨h.weight.trans k.weight, fun flag => ?_⟩
  rcases k.flag flag with before | rise
  · exact (h.flag before).imp_right fun rise => rise.trans_le k.weight
  · exact .inr (h.weight.trans_lt rise)

/-- A record takes zones of those grantable to it. -/
theorem Takes.flagged {s t : State} {p p' : Page} (h : Takes s t p p' (s.grantableZones p)) (ok : s.pagesOk) {u : State}
    (pages : u.pages = t.pages) (b : Bool) : Rises (s, b)
      (u, b || s.pages.queue.any (fun q => q.id != p.id && q.suspendedBy (s.grantableZones p))) := by
  have same : u.weight = t.weight := by
    unfold State.weight
    rw [pages]
  obtain ⟨weight, rise⟩ := h.rises ok fun z taken => ((grantableZones_getLsbD s p z).mp taken).2
  refine ⟨weight.trans_eq same.symm, fun flag => ?_⟩
  rw [Bool.or_eq_true] at flag
  exact flag.imp_right fun hit => (rise hit).trans_eq same.symm

theorem withPage_weight (s : State) (id : PageId) {f : Page → Page} (granted : ∀ q, (f q).granted = q.granted) :
    (s.withPage id f).weight = s.weight := by
  unfold State.weight State.withPage
  rw [List.map_map]
  congr 1
  refine List.map_congr_left fun q _ => ?_
  rw [Function.comp_apply]
  split
  · rw [granted]
  · rfl

theorem examinePage_rises {s : State} (ok : s.pagesOk) (id : PageId) (b : Bool) :
    Rises (s, b) (examinePage id (s, b)) := by
  cases found : s.page id with
  | none =>
    have unchanged : examinePage id (s, b) = (s, b) := by simp only [examinePage, found]
    rw [unchanged]
    exact .refl _
  | some p =>
    obtain ⟨mem, rfl⟩ := page_some found
    obtain ⟨own, -⟩ := mem_grantable (s := s) (p := p) (zones := s.grantableZones p) fun _ h => h
    by_cases playing : p.state = .playing
    · rw [examinePage_playing ok.idsApart mem b playing]
      split_ifs
      · exact .refl _
      · have same : (s.withPage p.id (fun q => { q with joining := s.grantableZones p })).weight = s.weight :=
          withPage_weight s p.id fun _ => rfl
        exact ⟨same.ge, .inl⟩
      · exact (takes_of_playing ok mem playing _ own).flagged ok rfl b
    · by_cases may : (if p.whole then s.grantableZones p = p.zones else s.grantableZones p ≠ 0) ∧
          (p.clip = true ∨ p.chime ≠ none → ∃ x : Fin 4, ∀ q ∈ s.pages.queue, q.player ≠ some x)
      · rw [examinePage_may ok mem playing b may.1 may.2]
        refine (takes_of_idle ok mem playing _ own).flagged ok ?_ b
        unfold Page.shownIn
        split <;> rfl
      · rw [examinePage_mayNot ok mem playing b may]
        exact .refl _

theorem walk_eq (s : State) : walk s = (s.pages.queue.map (·.id)).foldl (fun r id => examinePage id r) (s, false) := rfl

theorem walk_rises {s : State} (ok : s.pagesOk) : s.weight ≤ (walk s).1.weight ∧
    ((walk s).2 = true → s.weight < (walk s).1.weight) := by
  have folds (l : List PageId) (r : State × Bool) (ok : r.1.pagesOk) :
      Rises r (l.foldl (fun r id => examinePage id r) r) := by
    induction l generalizing r with
    | nil => exact .refl r
    | cons id rest ih => exact (examinePage_rises ok id r.2).trans (ih _ ((examinePage_keeps id r).pages ok))
  have rises := folds s.pageIds (s, false) ok
  exact ⟨rises.weight, fun flag => (rises.flag flag).resolve_left Bool.false_ne_true⟩

/-! ### A pass -/

/-- One walk, its flag left out. -/
def walked (s : State) : State := (walk s).1

theorem walked_iterate_pagesOk {s : State} (ok : s.pagesOk) (n : Nat) : (walked^[n] s).pagesOk := by
  induction n with
  | zero => exact ok
  | succ n ih =>
    rw [Function.iterate_succ_apply']
    exact (walk_keeps _).pages ih

theorem walked_iterate_weight {s : State} (ok : s.pagesOk) {n : Nat}
    (suspends : ∀ k < n, (walk (walked^[k] s)).2 = true) : n ≤ (walked^[n] s).weight := by
  induction n with
  | zero => exact Nat.zero_le _
  | succ n ih =>
    have before := ih fun k less => suspends k (Nat.lt_succ_of_lt less)
    have rise := (walk_rises (walked_iterate_pagesOk ok n)).2 (suspends n (Nat.lt_succ_self n))
    rw [Function.iterate_succ_apply']
    exact Nat.succ_le_of_lt (before.trans_lt rise)

theorem walks_eq {n m : Nat} (enough : n < m) {s : State} (suspends : ∀ k < n, (walk (walked^[k] s)).2 = true)
    (last : (walk (walked^[n] s)).2 = false) : walks m s = walked^[n + 1] s := by
  induction n generalizing m s with
  | zero =>
    obtain ⟨m, rfl⟩ := Nat.exists_eq_succ_of_ne_zero (Nat.pos_iff_ne_zero.mp enough)
    unfold walks
    exact if_neg (by rw [show (walk s).2 = false from last]; exact Bool.false_ne_true)
  | succ n ih =>
    obtain ⟨m, rfl⟩ := Nat.exists_eq_succ_of_ne_zero (Nat.ne_of_gt (Nat.zero_lt_of_lt enough))
    have first : (walk s).2 = true := suspends 0 (Nat.succ_pos n)
    unfold walks
    dsimp only
    rw [first, if_pos rfl]
    exact ih (Nat.lt_of_succ_lt_succ enough) (s := walked s)
      (fun k less => suspends (k + 1) (Nat.succ_lt_succ less)) last

/-- A pass is walks until one suspends no page: the bound is never reached (R112). -/
theorem grantPass_walks {s : State} (ok : s.pagesOk) : ∃ n : Nat, (∀ k < n, (walk (walked^[k] s)).2 = true) ∧
    (walk (walked^[n] s)).2 = false ∧ s.grantPass = walked^[n + 1] s := by
  have ends : ∃ n, (walk (walked^[n] s)).2 = false := by
    by_contra never
    push Not at never
    have always (k : Nat) : (walk (walked^[k] s)).2 = true := Bool.not_eq_false _ ▸ never k
    have high := walked_iterate_weight ok (n := walkBound) fun k _ => always k
    exact absurd (weight_lt (walked_iterate_pagesOk ok walkBound)) (Nat.not_lt.mpr high)
  classical
  have suspends (k : Nat) (less : k < Nat.find ends) : (walk (walked^[k] s)).2 = true :=
    Bool.eq_true_of_not_eq_false (Nat.find_min ends less)
  refine ⟨Nat.find ends, suspends, Nat.find_spec ends, ?_⟩
  have bound := (walked_iterate_weight ok suspends).trans_lt (weight_lt (walked_iterate_pagesOk ok _))
  exact walks_eq bound suspends (Nat.find_spec ends)

end Sys2Proof.Machine
end

section
/-! The passes of a period, the ends they bring about, and its close (R38, R111, R112, R121 to R123). -/

namespace Sys2Proof.Machine

/-! ### Passes -/

theorem passesRun_iterate (n : Nat) (s : State) : passesRun n s = State.grantPass^[n] s := by
  induction n generalizing s with
  | zero => rfl
  | succ n ih => rw [passesRun, ih, Function.iterate_succ_apply]

theorem runPasses_length (s : State) : s.runPasses.pages.queue.length = s.pages.queue.length := by
  have ids := congrArg List.length (runPasses_pages s).2
  rwa [List.length_map, List.length_map] at ids

/-! ### Records past their wait lives -/

/-- A WAITING or SUSPENDED record past its wait life (R123). -/
def Page.overdue (q : Page) : Bool :=
  q.state != .playing && decide (0 < q.waitLife) && decide (q.waitLife * 48000 ≤ q.waitTimer)

theorem pageExpired_eq {s : State} (apart : s.pageIdsApart) {p : Page} (mem : p ∈ s.pages.queue) :
    pageExpired p.id s = if p.overdue then s.pageOver p 3 else s := by
  have late : (p.state ≠ .playing ∧ 0 < p.waitLife ∧ p.waitLife * 48000 ≤ p.waitTimer) ↔ p.overdue = true := by
    rw [Page.overdue, Bool.and_eq_true, Bool.and_eq_true, bne_iff_ne, decide_eq_true_eq, decide_eq_true_eq, and_assoc]
  have ended : s.endPage p.id pageExpiredCause = s.pageOver p 3 := endPage_eq apart mem 3
  unfold pageExpired
  rw [page_of_mem apart mem]
  dsimp only
  rw [ended]
  exact if_congr late rfl rfl

theorem pageOver_queue (s : State) (p : Page) (cause : Nat) :
    (s.pageOver p cause).pages.queue = s.pages.queue.filter (fun q => q.id != p.id) ∧
    (s.pageOver p cause).pages.passes = s.pages.passes + 1 := by
  refine ⟨rfl, ?_⟩
  have freed : (s.playerFreed p.player).pages = s.pages := by
    cases p.player <;> rfl
  change (s.playerFreed p.player).pages.passes + 1 = _
  rw [freed]

/-- Each record in turn ends when it is past its wait life: those that are end, in queue order. -/
theorem foldl_pageExpired {s : State} (apart : s.pageIdsApart) {l : List Page} (ids : (l.map (·.id)).Nodup)
    (sub : ∀ p ∈ l, p ∈ s.pages.queue) : (l.map (·.id)).foldl (fun s id => pageExpired id s) s =
      (l.filter Page.overdue).foldl (fun t q => t.pageOver q 3) s := by
  induction l generalizing s with
  | nil => rfl
  | cons p rest ih =>
    obtain ⟨fresh, ids⟩ := List.nodup_cons.mp ids
    have mem := sub p List.mem_cons_self
    rw [List.map_cons, List.foldl_cons, pageExpired_eq apart mem]
    by_cases late : p.overdue = true
    · rw [if_pos late, List.filter_cons_of_pos late, List.foldl_cons]
      obtain ⟨queue, -⟩ := pageOver_queue s p 3
      refine ih ?_ ids fun q inside => ?_
      · unfold State.pageIdsApart
        rw [queue]
        exact List.Nodup.sublist (List.filter_sublist.map _) apart
      · rw [queue, List.mem_filter, bne_iff_ne]
        exact ⟨sub q (List.mem_cons_of_mem _ inside), fun same => fresh (List.mem_map.mpr ⟨q, inside, same⟩)⟩
    · rw [if_neg late, List.filter_cons_of_neg late]
      exact ih apart ids fun q inside => sub q (List.mem_cons_of_mem _ inside)

theorem expirePages_eq {s : State} (apart : s.pageIdsApart) : s.expirePages = s.expired :=
  foldl_pageExpired apart apart fun _ h => h

theorem foldl_pageOver_passes (l : List Page) (s : State) :
    (l.foldl (fun t q => t.pageOver q 3) s).pages.passes = s.pages.passes + l.length := by
  induction l generalizing s with
  | nil => rfl
  | cons p rest ih =>
    rw [List.foldl_cons, ih, (pageOver_queue s p 3).2, List.length_cons]
    omega

/-- With no pass made due, no record was past its wait life. -/
theorem expired_quiet {s : State} (none : s.expired.pages.passes = s.pages.passes) :
    s.expired = s ∧ ∀ q ∈ s.pages.queue, q.overdue = false := by
  have count : s.expired.pages.passes = s.pages.passes + (s.pages.queue.filter Page.overdue).length :=
    foldl_pageOver_passes _ s
  have empty : s.pages.queue.filter Page.overdue = [] := List.eq_nil_of_length_eq_zero (by omega)
  have expired : s.expired = (s.pages.queue.filter Page.overdue).foldl (fun t q => t.pageOver q 3) s := rfl
  refine ⟨by rw [expired, empty, List.foldl_nil], fun q mem => ?_⟩
  rw [← Bool.not_eq_true]
  exact List.filter_eq_nil_iff.mp empty q mem

/-- An expiry changes nothing, or makes a pass due and takes a record from the queue. -/
theorem pageExpired_cases (id : PageId) (s : State) : pageExpired id s = s ∨
    (s.pages.passes < (pageExpired id s).pages.passes ∧
      (pageExpired id s).pages.queue.length < s.pages.queue.length) := by
  unfold pageExpired
  split
  · rename_i p found
    split
    · refine .inr ?_
      obtain ⟨mem, rfl⟩ := page_some found
      have ended : s.endPage p.id pageExpiredCause = s.pageOver p 3 := endPage_first found 3
      obtain ⟨queue, passes⟩ := pageOver_queue s p 3
      rw [ended, queue, passes]
      refine ⟨Nat.lt_succ_self _, List.length_filter_lt_length_iff_exists.mpr ⟨p, mem, ?_⟩⟩
      rw [bne_self_eq_false]
      exact Bool.false_ne_true
    · exact .inl rfl
  · exact .inl rfl

theorem expirePages_cases (s : State) : s.expirePages = s ∨
    (s.pages.passes < s.expirePages.pages.passes ∧ s.expirePages.pages.queue.length < s.pages.queue.length) := by
  unfold State.expirePages
  generalize s.pageIds = l
  induction l generalizing s with
  | nil => exact .inl rfl
  | cons id rest ih =>
    rw [List.foldl_cons]
    rcases pageExpired_cases id s with same | ⟨more, fewer⟩
    · rw [same]
      exact ih s
    · refine .inr ?_
      rcases ih (pageExpired id s) with same | ⟨more', fewer'⟩
      · rw [same]
        exact ⟨more, fewer⟩
      · exact ⟨more.trans more', fewer'.trans fewer⟩

/-! ### Rounds -/

/-- The state after one round: the passes run, and the records past their wait lives end. -/
def State.round (s : State) : State := s.runPasses.expirePages

/-- A round leaves no pass due, or fewer records. -/
theorem round_cases (s : State) : s.round.pages.passes = 0 ∨ s.round.pages.queue.length < s.pages.queue.length := by
  rcases expirePages_cases s.runPasses with same | ⟨-, fewer⟩
  · refine .inl ?_
    rw [State.round, same]
    exact (runPasses_pages s).1
  · rw [runPasses_length] at fewer
    exact .inr fewer

theorem settleRounds_none {s : State} (none : s.pages.passes = 0) (n : Nat) : settleRounds n s = s := by
  cases n with
  | zero => rfl
  | succ n =>
    unfold settleRounds
    exact if_pos none

theorem settleRounds_some {s : State} (due : 0 < s.pages.passes) (n : Nat) :
    settleRounds (n + 1) s = settleRounds n s.round := by
  rw [settleRounds]
  exact if_neg (Nat.ne_of_gt due)

/-- Rounds beyond the number of records change nothing more. -/
theorem settleRounds_enough {n m : Nat} {s : State} (hn : s.pages.queue.length < n) (hm : s.pages.queue.length < m) :
    settleRounds n s = settleRounds m s := by
  induction n generalizing m s with
  | zero => exact absurd hn (Nat.not_lt_zero _)
  | succ n ih =>
    obtain ⟨m, rfl⟩ := Nat.exists_eq_succ_of_ne_zero (Nat.ne_of_gt (Nat.zero_lt_of_lt hm))
    rcases Nat.eq_zero_or_pos s.pages.passes with none | due
    · rw [settleRounds_none none, settleRounds_none none]
    · rw [settleRounds_some due, settleRounds_some due]
      rcases round_cases s with none | fewer
      · rw [settleRounds_none none, settleRounds_none none]
      · exact ih (fewer.trans_le (Nat.le_of_lt_succ hn)) (fewer.trans_le (Nat.le_of_lt_succ hm))

theorem settle_round {s : State} (due : 0 < s.pages.passes) : s.settle = s.round.settle := by
  rw [State.settle, settleRounds_some due]
  rcases round_cases s with none | fewer
  · rw [settleRounds_none none, settle_none _ none]
  · exact settleRounds_enough fewer (Nat.lt_succ_self _)

theorem round_expired {s : State} (ok : s.pagesOk) : s.round = s.runPasses.expired :=
  expirePages_eq ((runPasses_keeps s).pages ok).idsApart

/-- When the passes of a period are over none is due. -/
theorem settle_passes (s : State) : s.settle.pages.passes = 0 := by
  induction h : s.pages.queue.length using Nat.strong_induction_on generalizing s with
  | _ n ih =>
    rcases Nat.eq_zero_or_pos s.pages.passes with none | due
    · rw [settle_none s none, none]
    · rw [settle_round due]
      rcases round_cases s with none | fewer
      · rw [settle_none _ none, none]
      · exact ih _ (h ▸ fewer) s.round rfl

/-- The passes of a period leave no record past its wait life. -/
theorem settle_overdue {s : State} (ok : s.pagesOk) (due : 0 < s.pages.passes) :
    ∀ q ∈ s.settle.pages.queue, q.overdue = false := by
  induction h : s.pages.queue.length using Nat.strong_induction_on generalizing s with
  | _ n ih =>
    have ran := (runPasses_keeps s).pages ok
    have okRound : s.round.pagesOk := (expirePages_keeps _).pages ran
    rw [settle_round due]
    rcases Nat.eq_zero_or_pos s.round.pages.passes with none | again
    · rw [settle_none _ none]
      rw [round_expired ok] at none ⊢
      obtain ⟨same, punctual⟩ := expired_quiet (none.trans (runPasses_pages s).1.symm)
      rw [same]
      exact punctual
    · have fewer := (round_cases s).resolve_left (Nat.ne_of_gt again)
      exact ih _ (h ▸ fewer) okRound again rfl

theorem overdue_false_iff (q : Page) : q.overdue = false ↔
    (q.state ≠ .playing → 0 < q.waitLife → q.waitTimer < q.waitLife * 48000) := by
  rw [← Bool.not_eq_true, Page.overdue, Bool.and_eq_true, Bool.and_eq_true, bne_iff_ne, decide_eq_true_eq,
    decide_eq_true_eq]
  constructor
  · intro punctual idle lives
    exact Nat.lt_of_not_le fun late => punctual ⟨⟨idle, lives⟩, late⟩
  · rintro punctual ⟨⟨idle, lives⟩, late⟩
    exact absurd (punctual idle lives) (Nat.not_lt.mpr late)

/-! ### The close of a period -/

theorem pollCue_eq (s : State) : s.pollCue = { s with icom := { s.icom with poll := s.pollCue.icom.poll } } := by
  unfold State.pollCue
  split <;> rfl

theorem applySettings_eq (s : State) : s.applySettings = { s with
    ctl := { s.ctl with settings := s.ctl.incoming.getD s.ctl.settings, incoming := none } } := by
  unfold State.applySettings
  cases brought : s.ctl.incoming with
  | some x => rfl
  | none =>
    change s = { s with ctl := { s.ctl with incoming := none } }
    rw [← brought]

/-- The close of a period: its events, then the cue of its poll and the settings of a SET NODE. -/
theorem closePeriod_after {s v : State} (hv : v = s.eventsTaken.settle.after lastEvents) :
    closePeriod s = v.pollCue.applySettings ∧ v.pages = s.eventsTaken.settle.pages := by
  rw [hv, lastEvents_after, eventsTaken_settle]
  exact ⟨rfl, (closeRest_quiet _).2⟩

theorem closePeriod_close {s v : State} (hv : v = s.eventsTaken.settle.after lastEvents) :
    closePeriod s = { v with
      icom := { v.icom with poll := (closePeriod s).icom.poll }
      ctl := { v.ctl with settings := v.ctl.incoming.getD v.ctl.settings, incoming := none } } ∧
    (closePeriod s).pages = v.pages := by
  obtain ⟨closed, -⟩ := closePeriod_after hv
  have poll : (closePeriod s).icom.poll = v.pollCue.icom.poll := by
    rw [closed, applySettings_eq]
  rw [poll, closed, applySettings_eq, pollCue_eq v]
  exact ⟨rfl, rfl⟩

end Sys2Proof.Machine

open Sys2Proof Sys2Proof.Machine

/-- Settles O42: zones bit by bit, the examination of one record by its cases, the number that bounds the walks of a
pass, and the rounds of a close. -/
theorem grantPassesFollowTheQueue : Obligations.GrantPassesFollowTheQueue := by
  intro s ok
  refine ⟨fun p z => ⟨grantable_iff ok p z, grantableZones_getLsbD s p z, revokedZones_iff s p z⟩,
    handScheduler_eq ok.idsApart, ?_, walk_eq s, grantPass_walks ok, passesRun_iterate _ _, settle_none s,
    fun due => ?_, fun due q mem => ?_, ?_, ?_⟩
  · intro p b mem zs hit needs free may sequence chimes playing shown taken
    have parts : p.sequence = (sequence, chimes) := sequence_eq p
    refine ⟨fun plays whole => ?_, fun plays partial_ clip => ?_, fun plays partial_ live => ?_, fun idle mayNot => ?_,
      fun idle may needsNot => ?_, fun x idle may needs free lowest => ?_⟩
    · rw [examinePage_playing ok.idsApart mem b plays, if_pos whole]
    · rw [examinePage_playing ok.idsApart mem b plays, if_neg (by rw [partial_]; exact Bool.false_ne_true), if_pos clip]
    · rw [examinePage_playing ok.idsApart mem b plays, if_neg (by rw [partial_]; exact Bool.false_ne_true),
        if_neg (by rw [live]; exact Bool.false_ne_true)]
    · exact examinePage_mayNot ok mem idle b mayNot
    · obtain ⟨zones, player⟩ := may
      rw [examinePage_may ok mem idle b zones player, granted_withoutPlayer ok mem idle needsNot]
      rfl
    · obtain ⟨zones, player⟩ := may
      rw [examinePage_may ok mem idle b zones player, granted_withPlayer ok mem idle needs _ free lowest, parts]
      rfl
  · rw [settle_round due, round_expired ok]
  · exact (overdue_false_iff q).mp (settle_overdue ok due q mem)
  · intro v
    have hv : v = s.eventsTaken.settle.after lastEvents := rfl
    clear_value v
    exact ⟨(closePeriod_close hv).1, (closePeriod_after hv).2⟩
  · rw [(closePeriod_close rfl).2, (closePeriod_after rfl).2]
    exact settle_passes _

end
